-- ==== Sys2Proof/Word.lean ====
section
/-! DEFINITION. The kinds of value the block carries.

R12: every length, position, syndrome, count and code is an unsigned integer, and no arithmetic
of the block can overflow. R11: every vector is numbered from bit 0, the least significant. The
widths of most vectors depend on the parameter `NMAX`, so a vector is held as the natural number
it spells, codeword position `j+1` at bit `j` (R41), and the bound its width puts on it is stated
where it matters (`Instr.wellFormed`, `State.Inv`; log entry 4). Only a field whose width is the
same in every configuration is a bit vector. -/

namespace Sys2Proof

/-- The three bits of `RSP_ERR` (R24). -/
abbrev ErrBits := BitVec 3

end Sys2Proof
end

