-- ==== Sys2Proof/Config.lean ====
section
/-! DEFINITION. What a built block fixes (R5, R8, R132), and the values the spec leaves free. -/

namespace Sys2Proof

/-- The two implementation parameters. Both are open in the spec (R5, R8; U3, U4), so each state
carries the configuration of the block it is a state of, and a statement about every state is one
about every configuration (DESIGN CHOICE, log entry 1). -/
structure Config where
  /-- `NMAX`, the largest codeword length the block accepts (R5). -/
  nmax : Nat
  /-- `LAT`, the number of clock edges from acceptance to response (R8). -/
  lat : Nat
  /-- `NMAX >= 1` (R5). -/
  nmaxPos : 1 ≤ nmax := by decide
  deriving DecidableEq, Repr

/-- The reference configuration of the test vectors: `NMAX = 8`, `LAT = 0` (R5, R8). -/
def Config.reference : Config := { nmax := 8, lat := 0 }

/-- What register number `r` holds between power-up and the first reset edge: unspecified
(R142, U2), so a free value. Nothing in Lean can evaluate it (log entry 8). -/
opaque Config.powerUpDraw : Nat → Nat

end Sys2Proof
end

