-- ==== Sys2Proof/Machine/Bits.lean ====
section
/-! DEFINITION. Bit-level helpers (R11, R13, R14) and the widths that follow from the parameters
(R6, R7, R9). -/

namespace Sys2Proof

/-- `bitlen(n)`, the number of binary digits of `n` (R14). -/
def bitlen (n : Nat) : Nat := if n = 0 then 0 else Nat.log2 n + 1

/-- `popcount(v)`, the number of 1 bits of `v` (R14). -/
def popcount (v : Nat) : Nat := ((List.range (bitlen v)).filter fun i => v.testBit i).length

/-- The vector of `width` bits whose bit `i` is `f i`. -/
def vecOf : Nat → (Nat → Bool) → Nat
  | 0, _ => 0
  | width + 1, f => vecOf width f ||| (f width).toNat <<< width

/-- `XOR over j in 0 .. n-1 of f(j)`; 0 when there is no `j` (R13). -/
def xorOver : Nat → (Nat → Bool) → Bool
  | 0, _ => false
  | n + 1, f => xorOver n f ^^ f n

/-- `w[lo+width-1 : lo]` as an unsigned integer (R11). -/
def bitField (w : Nat) (lo width : Nat) : Nat := (w >>> lo) % 2 ^ width

/-- `K = bitlen(NMAX)`: the number of parity slots and the width of every length and syndrome
field (R6). -/
def Config.k (c : Config) : Nat := bitlen c.nmax

/-- `CK = bitlen(K)`, the width of the parity-position count (R7). -/
def Config.ck (c : Config) : Nat := bitlen c.k

/-- `CW_W`, the width of the command word (R9, R53). -/
def Config.cwW (c : Config) : Nat := 3 + 3 * c.k + 2 * c.nmax

/-- `RW_W`, the width of the response word (R9, R60). -/
def Config.rwW (c : Config) : Nat := 3 + c.ck + 2 * c.k + 2 * c.nmax

/-- The width of `CNT` (R33). -/
def Config.cntW (c : Config) : Nat := max 1 (bitlen c.lat)

/-- What the `CW_W` wires of `cmd_word` carry when the host drives the number `w` (R23, R53;
log entry 4). -/
def Config.cmdPort (c : Config) (w : Nat) : Nat := bitField w 0 c.cwW

end Sys2Proof
end

