-- ==== Sys2Proof/Syntax.lean ====
section
/-! DEFINITION. The commands (R61), one constructor per row of spec/opcode_table.json.

A constructor holds exactly the fields its command reads (R62), as the unsigned integers
their bits spell (R65). A reserved word reads none of its fields; its bits above the
opcode are kept so that the whole word can be printed (R72). -/

namespace Sys2Proof

/-- A command. -/
inductive Instr where
  /-- `PPOS n` (R73). -/
  | ppos (na : Nat)
  /-- `SYND n, cw` (R81). -/
  | synd (na : Nat) (a : Nat)
  /-- `CORR n, s, cw` (R96). -/
  | corr (na s : Nat) (a : Nat)
  /-- `DIFF na, nb, cwa, cwb` (R104). -/
  | diff (na nb : Nat) (a b : Nat)
  /-- A word whose `OP` is 4 to 7 (R63, R113); `rest` is the word's bits above `OP`. -/
  | reserved (op : Nat) (rest : Nat)
  deriving DecidableEq, Repr

end Sys2Proof
end

