-- ==== Sys2Proof/WellFormed.lean ====
section
/-! DEFINITION. Which commands have a command word: every operand fits its field (R69), and a
reserved opcode is one of 4 to 7 (R61). Lengths outside `1..NMAX` that fit their field are well
formed; they get an error response (R63, R112). -/

namespace Sys2Proof

/-- `v` fits a field of `width` bits. -/
def fits (width v : Nat) : Bool := decide (v < 2 ^ width)

/-- "Each operand must fit its field: `NA, NB, S < 2^K` and `A, B < 2^NMAX`" (R69). -/
def Instr.wellFormed (c : Config) : Instr → Bool
  | .ppos na => fits c.k na
  | .synd na a => fits c.k na && fits c.nmax a
  | .corr na s a => fits c.k na && fits c.k s && fits c.nmax a
  | .diff na nb a b => fits c.k na && fits c.k nb && fits c.nmax a && fits c.nmax b
  | .reserved op rest => decide (4 ≤ op) && fits 3 op && fits (3 * c.k + 2 * c.nmax) rest

end Sys2Proof
end

