-- ==== Sys2Proof/Decode.lean ====
section
/-! DEFINITION. From command words to commands and back (R53, R61, R69).

The block receives a word whole, over `CW_W` parallel wires (R43), so the decoder takes a number.
Every `CW_W`-bit word is a command (R63, R66). -/

namespace Sys2Proof

/-! ### The six fields (R53) -/

/-- `OP`, bits `[2:0]` (R54). -/
def opField (w : Nat) : Nat := bitField w 0 3

/-- `NA`, bits `[2+K : 3]` (R55). -/
def naField (c : Config) (w : Nat) : Nat := bitField w 3 c.k

/-- `NB`, bits `[2+2K : 3+K]` (R56). -/
def nbField (c : Config) (w : Nat) : Nat := bitField w (3 + c.k) c.k

/-- `S`, bits `[2+3K : 3+2K]` (R57). -/
def sField (c : Config) (w : Nat) : Nat := bitField w (3 + 2 * c.k) c.k

/-- `A`, bits `[2+3K+NMAX : 3+3K]` (R58). -/
def aField (c : Config) (w : Nat) : Nat := bitField w (3 + 3 * c.k) c.nmax

/-- `B`, bits `[2+3K+2*NMAX : 3+3K+NMAX]` (R59). -/
def bField (c : Config) (w : Nat) : Nat := bitField w (3 + 3 * c.k + c.nmax) c.nmax

/-- All the bits above `OP`, up to the top of the command word. -/
def restField (c : Config) (w : Nat) : Nat := bitField w 3 (3 * c.k + 2 * c.nmax)

/-! ### Decoding -/

/-- The command a word stands for, selected from `OP` alone (R61). Fields the command does not
read are dropped (R62). -/
def decode (c : Config) (w : Nat) : Instr :=
  match opField w with
  | 0 => .ppos (naField c w)
  | 1 => .synd (naField c w) (aField c w)
  | 2 => .corr (naField c w) (sField c w) (aField c w)
  | 3 => .diff (naField c w) (nbField c w) (aField c w) (bField c w)
  | op => .reserved op (restField c w)

/-- Why a number is no command word. -/
inductive DecodeError where
  /-- A bit is set above the `CW_W` bits of the word; those bits "are not part of the word" (R68). -/
  | widerThanCommandWord
  deriving DecidableEq, Repr

/-- The decoder on any number: a number wider than the command word is rejected by name. -/
def decodeWord (c : Config) (w : Nat) : Except DecodeError Instr :=
  if w < 2 ^ c.cwW then .ok (decode c w) else .error .widerThanCommandWord

/-- What the decoder reads, in the reference configuration (R68), from the word whose low `nbits`
bits are those of `w` and whose other bits are 0 (log entry 6). -/
def decodeTableWord (nbits w : Nat) : Option Instr :=
  match decodeWord Config.reference (bitField w 0 nbits) with
  | .ok i => some i
  | .error _ => none

/-! ### Encoding -/

/-- Nat assembly from the six fields (R69). -/
def assembleWord (c : Config) (op na nb s : Nat) (a b : Nat) : Nat :=
  op ||| na <<< 3 ||| nb <<< (3 + c.k) ||| s <<< (3 + 2 * c.k) ||| a <<< (3 + 3 * c.k) |||
    b <<< (3 + 3 * c.k + c.nmax)

/-- The word of a command. "Fields the command does not read are assembled as 0" (R70). -/
def encode (c : Config) : Instr → Nat
  | .ppos na => assembleWord c 0 na 0 0 0 0
  | .synd na a => assembleWord c 1 na 0 0 a 0
  | .corr na s a => assembleWord c 2 na 0 s a 0
  | .diff na nb a b => assembleWord c 3 na nb 0 a b
  | .reserved op rest => op ||| rest <<< 3

end Sys2Proof
end

