-- ==== Sys2Proof/Machine/Operands.lean ====
section
/-! DEFINITION. How a command's operands are read. The only operand forms are fields of the command
word (R20, R65): unsigned lengths and syndromes, and codewords of which only the bits below the
length count (R44). -/

namespace Sys2Proof.Machine

/-- The `OP` value of a command (R61). -/
def opOf : Instr → Nat
  | .ppos _ => 0
  | .synd _ _ => 1
  | .corr _ _ _ => 2
  | .diff _ _ _ _ => 3
  | .reserved op _ => op

/-- The length `NA` of a command; 0 for a reserved word, which reads none (R62). -/
def lenA : Instr → Nat
  | .ppos na => na
  | .synd na _ => na
  | .corr na _ _ => na
  | .diff na _ _ _ => na
  | .reserved _ _ => 0

/-- The length `NB`; 0 for a command that reads none (R56, R62). -/
def lenB : Instr → Nat
  | .diff _ nb _ _ => nb
  | .ppos _ => 0
  | .synd _ _ => 0
  | .corr _ _ _ => 0
  | .reserved _ _ => 0

/-- The syndrome operand `S`; 0 for a command that reads none (R57, R62). -/
def synOperand : Instr → Nat
  | .corr _ s _ => s
  | .ppos _ => 0
  | .synd _ _ => 0
  | .diff _ _ _ _ => 0
  | .reserved _ _ => 0

/-- PEN, the position-enable decoder: `EN[j] = (j + 1 <= n)` (R83). -/
def pen (c : Config) (n : Nat) : Nat := vecOf c.nmax fun j => decide (j + 1 ≤ n)

/-- Codeword `a` masked to its low `n` bits: `A[n-1:0]` (R44). -/
def maskTo (n : Nat) (a : Nat) : Nat := bitField a 0 n

end Sys2Proof.Machine
end

