-- ==== Sys2Proof/Machine/Datapath.lean ====
section
/-! DEFINITION. The combinational sub-blocks (R2): PPG, PCA, SAM, FLIP and DCMP. PEN is in
`Operands.lean`, RMUX in `Ops.lean`. -/

namespace Sys2Proof.Machine

/-- PPG's mask: `PMASK[k] = ((n >> k) != 0)` (R75). -/
def ppgMask (c : Config) (n : Nat) : Nat := vecOf c.k fun k => decide (n >>> k ≠ 0)

/-- PPG's count: `PCNT = bitlen(n)` (R75). -/
def ppgCount (n : Nat) : Nat := bitlen n

/-- PCA, one XOR tree per parity slot (R84):
`PC[k] = XOR over j in 0 .. NMAX-1 of ( A[j] AND EN[j] AND ((j + 1) >> k) AND 1 )`. -/
def pca (c : Config) (a en : Nat) : Nat :=
  vecOf c.k fun k => xorOver c.nmax fun j => a.testBit j && en.testBit j && (j + 1).testBit k

/-- SAM, the syndrome assembly mux: `SYN[k] = PMASK[k] ? PC[k] : 0` (R85). -/
def sam (c : Config) (pc pmask : Nat) : Nat :=
  vecOf c.k fun k => if pmask.testBit k then pc.testBit k else false

/-- The syndrome SYND assembles for codeword `a` of length `n` (R81). -/
def syndrome (c : Config) (n : Nat) (a : Nat) : Nat := sam c (pca c a (pen c n)) (ppgMask c n)

/-- FLIP (R97): `F[j] = (s == j + 1)` and `CW[j] = EN[j] AND (A[j] XOR F[j])`. -/
def flip (c : Config) (n s : Nat) (a : Nat) : Nat :=
  vecOf c.nmax fun j => (pen c n).testBit j && (a.testBit j ^^ decide (s = j + 1))

/-- DCMP (R105): `DIFF[j] = EN[j] AND (A[j] XOR B[j])`. -/
def dcmp (c : Config) (n : Nat) (a b : Nat) : Nat :=
  vecOf c.nmax fun j => (pen c n).testBit j && (a.testBit j ^^ b.testBit j)

end Sys2Proof.Machine
end

