-- ==== Sys2Proof/Machine/State.lean ====
section
/-! DEFINITION. The state of the block (R22), what can stop a use of the model, and the state
after reset (R39). -/

namespace Sys2Proof.Machine

/-- What the host drives on the input ports at one rising edge of `clk` (R23). -/
structure EdgeIn where
  /-- `rst` (R127). -/
  rst : Bool
  /-- `cmd_valid`. -/
  cmdValid : Bool
  /-- `cmd_word` (R53). -/
  cmdWord : Nat
  deriving DecidableEq, Repr

/-- The six response fields, the value of `Exec` (R16, R60). -/
structure Response where
  err : ErrBits
  pcnt : Nat
  pmask : Nat
  syn : Nat
  cw : Nat
  diff : Nat
  deriving DecidableEq, Repr

/-- The state: R22's registers, each under its own name. "Nothing else is state" (R22): the
last two fields are the model's own (log entries 1 and 2). -/
structure State where
  /-- `RSP_VALID` (R30). -/
  rspValid : Bool
  /-- `RSP_ERR` (R24). -/
  rspErr : ErrBits
  /-- `RSP_PCNT`, `CK` bits (R25). -/
  rspPcnt : Nat
  /-- `RSP_PMASK`, `K` bits (R26). -/
  rspPmask : Nat
  /-- `RSP_SYN`, `K` bits (R27). -/
  rspSyn : Nat
  /-- `RSP_CW`, `NMAX` bits (R28). -/
  rspCw : Nat
  /-- `RSP_DIFF`, `NMAX` bits (R29). -/
  rspDiff : Nat
  /-- `LATCH`, the command word accepted last, `CW_W` bits (R32). -/
  latch : Nat
  /-- `BUSY` (R33). -/
  busy : Bool
  /-- `CNT`, the edges left until completion (R33). -/
  cnt : Nat
  /-- The parameters this block was built with; no edge changes them. DESIGN CHOICE: log entry 1. -/
  cfg : Config
  /-- What the host drives at the coming edges, the next one first. DESIGN CHOICE: log entry 2. -/
  edges : List EdgeIn
  deriving DecidableEq, Repr

/-- Why a use of the model stops with a fault. None is raised by `exec` or `step`: nothing the host
can present stops the block (R111). -/
inductive Fault where
  /-- Raised by `hostRead` when `RSP_ERR` holds 6 or 7, which the block never writes (R64, U8). Safe:
  no such state is reached (`State.Inv`). -/
  | reservedErrCode
  /-- Raised by `Event.apply`: an Issue while `busy` "has no step: it is held" (R138, U7). Safe. -/
  | issueWhileBusy
  /-- Raised by `Event.apply`: Tick is "enabled only when busy = true" (R138). Safe. -/
  | tickWhileIdle
  /-- Raised by `Event.apply`: Idle is "an edge with nothing to do", and an edge with `busy` has a
  Tick to do (R138). DEDUCED: log entry 9. Safe. -/
  | idleWhileBusy
  deriving DecidableEq, Repr

/-- Why a use of the model is refused. -/
inductive Refusal where
  /-- An instruction without a meaning. No arm of `exec` answers so. -/
  | notModelled (mnemonic : String)
  /-- Raised by `hostRead`: a host read while `RSP_VALID = 0` has no result (R135, U6). Safe. -/
  | noResult
  deriving DecidableEq, Repr

/-- The block of configuration `c` right after a reset edge (R39, R127), the host about to drive
`edges`. -/
def State.resetOf (c : Config) (edges : List EdgeIn) : State where
  rspValid := false
  rspErr := 0
  rspPcnt := 0
  rspPmask := 0
  rspSyn := 0
  rspCw := 0
  rspDiff := 0
  latch := 0
  busy := false
  cnt := 0
  cfg := c
  edges := edges

/-- The machine right after reset (R39): the reference configuration, no command presented
(log entries 1 and 2). -/
def State.reset : State := State.resetOf Config.reference []

end Sys2Proof.Machine
end

