-- ==== Sys2Proof/Machine/Flags.lean ====
section
/-! DEFINITION. The status a command reports: the error codes of `RSP_ERR` (R64) and the checks
that choose one (R112, R114). The block has no other flag (R38). -/

namespace Sys2Proof.Machine

/-- The outcomes a command can report (R64). -/
inductive ErrCode where
  | ok
  | invalidInput
  | lengthMismatch
  | outOfRange
  | capacity
  | illegalOp
  deriving DecidableEq, Repr

/-- The values of `RSP_ERR` (R64); 6 and 7 are never written. -/
def ErrCode.bits : ErrCode → ErrBits
  | .ok => 0
  | .invalidInput => 1
  | .lengthMismatch => 2
  | .outOfRange => 3
  | .capacity => 4
  | .illegalOp => 5

/-- The error the host reads from `RSP_ERR` bits; none for the two values that are never written
(R64). -/
def ErrCode.ofBits (b : ErrBits) : Option ErrCode :=
  match b.toNat with
  | 0 => some .ok
  | 1 => some .invalidInput
  | 2 => some .lengthMismatch
  | 3 => some .outOfRange
  | 4 => some .capacity
  | 5 => some .illegalOp
  | _ => none

/-- `Precheck` (R114): opcode before operands, `CAPACITY` (R116) before `INVALID_INPUT` (R117).
`nb` counts for DIFF only. -/
def precheck (c : Config) (op na nb : Nat) : Option ErrCode :=
  if 4 ≤ op then some .illegalOp
  else if c.nmax < na ∨ (op = 3 ∧ c.nmax < nb) then some .capacity
  else if na = 0 ∨ (op = 3 ∧ nb = 0) then some .invalidInput
  else none

/-- DIFF's own check (R106, R118). -/
def lengthCheck (na nb : Nat) : Option ErrCode := if na ≠ nb then some .lengthMismatch else none

/-- CORR's own check (R100, R119). -/
def rangeCheck (na s : Nat) : Option ErrCode := if na < s then some .outOfRange else none

/-- "The first check that fails decides the response" (R114). -/
def firstError : Option ErrCode → Option ErrCode → Option ErrCode
  | some e, _ => some e
  | none, own => own

end Sys2Proof.Machine
end

