-- ==== Sys2Proof/Machine/Ops.lean ====
section
/-! DEFINITION. The operations the meanings and the clock share: the result mux, the error
response, loading a response, and what each kind of clock edge writes. -/

namespace Sys2Proof.Machine

/-! ### RMUX (R67) and the error response (R115) -/

/-- What a successful command produced. -/
inductive Output where
  | positions (pcnt : Nat) (pmask : Nat)
  | syndrome (pcnt : Nat) (pmask syn : Nat)
  | corrected (cw : Nat)
  | differences (diff : Nat)
  deriving DecidableEq, Repr

/-- The response of a successful command: "A field the command does not produce is 0" (R67). -/
def rmux : Output → Response
  | .positions pcnt pmask => ⟨ErrCode.ok.bits, pcnt, pmask, 0, 0, 0⟩
  | .syndrome pcnt pmask syn => ⟨ErrCode.ok.bits, pcnt, pmask, syn, 0, 0⟩
  | .corrected cw => ⟨ErrCode.ok.bits, 0, 0, 0, cw, 0⟩
  | .differences diff => ⟨ErrCode.ok.bits, 0, 0, 0, 0, diff⟩

/-- `raise Err(CODE)`: the code and nothing else (R115, R120). This is all that an error does:
there is no trap entry and no return from one (R122, R123). -/
def raiseErr (e : ErrCode) : Response := ⟨e.bits, 0, 0, 0, 0, 0⟩

/-- The response of a command whose checks found `e` and whose datapath produced `o` (R114). -/
def respond (e : Option ErrCode) (o : Output) : Response :=
  match e with
  | some code => raiseErr code
  | none => rmux o

/-! ### Response registers (R24 to R31) -/

/-- The six response registers take the fields of `r` and `RSP_VALID` becomes 1, all at one edge
(R36, R47). -/
def State.load (s : State) (r : Response) : State :=
  { s with
    rspValid := true
    rspErr := r.err
    rspPcnt := r.pcnt
    rspPmask := r.pmask
    rspSyn := r.syn
    rspCw := r.cw
    rspDiff := r.diff }

/-- What the response registers hold. -/
def State.response (s : State) : Response :=
  ⟨s.rspErr, s.rspPcnt, s.rspPmask, s.rspSyn, s.rspCw, s.rspDiff⟩

/-- A command completes with response `r` (R111). -/
def complete (r : Response) (s : State) : Host.Outcome State Fault Refusal := .next (s.load r)

/-- The response word of six fields (R60). -/
def responseWord (c : Config) (r : Response) : Nat :=
  r.err.toNat ||| r.pcnt <<< 3 ||| r.pmask <<< (3 + c.ck) ||| r.syn <<< (3 + c.ck + c.k) |||
    r.cw <<< (3 + c.ck + 2 * c.k) ||| r.diff <<< (3 + c.ck + 2 * c.k + c.nmax)

/-- How a host splits a response word (R69). -/
def splitResponse (c : Config) (w : Nat) : Response :=
  ⟨BitVec.ofNat 3 (bitField w 0 3), bitField w 3 c.ck, bitField w (3 + c.ck) c.k,
    bitField w (3 + c.ck + c.k) c.k, bitField w (3 + c.ck + 2 * c.k) c.nmax,
    bitField w (3 + c.ck + 2 * c.k + c.nmax) c.nmax⟩

/-- The output `rsp_word`, driven from the registers at all times (R31). -/
def State.rspWord (s : State) : Nat := responseWord s.cfg s.response

/-- The output `cmd_ready = (NOT BUSY) AND (NOT rst)` (R34). -/
def State.cmdReady (s : State) (rst : Bool) : Bool := !s.busy && !rst

/-- A host read of the response (R135): refused while `RSP_VALID = 0` (U6), and a fault of
the model if `RSP_ERR` holds a value the block never writes (U8). No read has a side effect
(R31, R47), so the state does not change. -/
def State.hostRead (s : State) : Host.Outcome Response Fault Refusal :=
  if s.rspValid then
    match ErrCode.ofBits s.rspErr with
    | some _ => .next s.response
    | none => .fault .reservedErrCode
  else .refused .noResult

/-! ### What each kind of edge writes (R35 to R37, R127) -/

/-- What the host drives when it presents nothing. -/
def EdgeIn.idle : EdgeIn := ⟨false, false, 0⟩

/-- The inputs at the next edge. Past the end of the list the host drives nothing
(DESIGN CHOICE, log entry 2). -/
def State.edgeIn (s : State) : EdgeIn := s.edges.headD EdgeIn.idle

/-- The edge is over: the host's next inputs come up. -/
def State.popEdge (s : State) : State := { s with edges := s.edges.tail }

/-- A reset edge: every register takes its reset value (R127). -/
def State.resetEdge (s : State) : State := State.resetOf s.cfg s.edges

/-- Acceptance writes `LATCH` (R32, R35). -/
def State.latchWord (s : State) (w : Nat) : State := { s with latch := w }

/-- Acceptance with `LAT >= 1`: the command is in flight; the response registers keep their old
values (R35). -/
def State.startFlight (s : State) : State :=
  { s with busy := true, cnt := s.cfg.lat - 1, rspValid := false }

/-- One more edge in flight (R36). -/
def State.countDown (s : State) : State := { s with cnt := s.cnt - 1 }

/-- The command in flight is done (R36). -/
def State.endFlight (s : State) : State := { s with busy := false }

/-! ### Power-up (R142, U2) -/

/-- The block between power-up and its first reset edge: every register is a free value, cut
to its width (log entry 8). -/
def State.powerUp (c : Config) (edges : List EdgeIn) : State where
  rspValid := (Config.powerUpDraw 0).testBit 0
  rspErr := BitVec.ofNat 3 (Config.powerUpDraw 1)
  rspPcnt := bitField (Config.powerUpDraw 2) 0 c.ck
  rspPmask := bitField (Config.powerUpDraw 3) 0 c.k
  rspSyn := bitField (Config.powerUpDraw 4) 0 c.k
  rspCw := bitField (Config.powerUpDraw 5) 0 c.nmax
  rspDiff := bitField (Config.powerUpDraw 6) 0 c.nmax
  latch := bitField (Config.powerUpDraw 7) 0 c.cwW
  busy := (Config.powerUpDraw 8).testBit 0
  cnt := bitField (Config.powerUpDraw 9) 0 c.cntW
  cfg := c
  edges := edges

end Sys2Proof.Machine
end

