-- ==== Sys2Proof/Machine/Correction.lean ====
section
/-! DEFINITION. CORR, `correctSingleBitError(codeword, syndrome)` (R96). -/

namespace Sys2Proof.Machine

/-- The response of `CORR n, s, cw` (R96). It applies any syndrome in `0..n` (R103). -/
def corrResponse (c : Config) (na sy : Nat) (a : Nat) : Response :=
  respond (firstError (precheck c 2 na 0) (rangeCheck na sy)) (.corrected (flip c na sy a))

/-- CORR (R96). -/
def execCorr (na sy : Nat) (a : Nat) (s : State) : Host.Outcome State Fault Refusal :=
  complete (corrResponse s.cfg na sy a) s

end Sys2Proof.Machine
end

