-- ==== Sys2Proof/Machine/Difference.lean ====
section
/-! DEFINITION. DIFF, `diffPositions(a, b)` (R104). -/

namespace Sys2Proof.Machine

/-- The response of `DIFF na, nb, cwa, cwb` (R104). -/
def diffResponse (c : Config) (na nb : Nat) (a b : Nat) : Response :=
  respond (firstError (precheck c 3 na nb) (lengthCheck na nb)) (.differences (dcmp c na a b))

/-- DIFF (R104). -/
def execDiff (na nb : Nat) (a b : Nat) (s : State) : Host.Outcome State Fault Refusal :=
  complete (diffResponse s.cfg na nb a b) s

end Sys2Proof.Machine
end

