-- ==== Sys2Proof/Machine/ParityPositions.lean ====
section
/-! DEFINITION. PPOS, `computeParityPositions(n)` (R73). -/

namespace Sys2Proof.Machine

/-- The response of `PPOS n` (R73). -/
def pposResponse (c : Config) (na : Nat) : Response :=
  respond (precheck c 0 na 0) (.positions (ppgCount na) (ppgMask c na))

/-- PPOS (R73). -/
def execPpos (na : Nat) (s : State) : Host.Outcome State Fault Refusal :=
  complete (pposResponse s.cfg na) s

end Sys2Proof.Machine
end

