-- ==== Sys2Proof/Machine/ReservedOpcode.lean ====
section
/-! DEFINITION. Words whose `OP` is 4 to 7 (R63, R113). -/

namespace Sys2Proof.Machine

/-- The response of a reserved opcode, "whatever its other fields hold" (R113). -/
def reservedResponse : Response := raiseErr .illegalOp

/-- A reserved opcode completes with `ILLEGAL_OP`; it is no no-op and no halt (R113, U9). -/
def execReserved (_op : Nat) (_rest : Nat) (s : State) : Host.Outcome State Fault Refusal :=
  complete reservedResponse s

end Sys2Proof.Machine
end

