-- ==== Sys2Proof/Machine/Syndrome.lean ====
section
/-! DEFINITION. SYND, `computeSyndrome(codeword)` (R81). -/

namespace Sys2Proof.Machine

/-- The response of `SYND n, cw` (R81); a syndrome above `n` is no error (R88). -/
def syndResponse (c : Config) (na : Nat) (a : Nat) : Response :=
  respond (precheck c 1 na 0) (.syndrome (ppgCount na) (ppgMask c na) (syndrome c na a))

/-- SYND (R81). -/
def execSynd (na : Nat) (a : Nat) (s : State) : Host.Outcome State Fault Refusal :=
  complete (syndResponse s.cfg na a) s

end Sys2Proof.Machine
end

