-- ==== Sys2Proof/Machine/Dispatch.lean ====
section
/-! DEFINITION. One arm per command. -/

namespace Sys2Proof.Machine

/-- The command `i` completes in state `s`. -/
def exec (i : Instr) (s : State) : Host.Outcome State Fault Refusal :=
  match i with
  | .ppos na => Sys2Proof.Machine.execPpos na s
  | .synd na a => Sys2Proof.Machine.execSynd na a s
  | .corr na sy a => Sys2Proof.Machine.execCorr na sy a s
  | .diff na nb a b => Sys2Proof.Machine.execDiff na nb a b s
  | .reserved op rest => Sys2Proof.Machine.execReserved op rest s

end Sys2Proof.Machine
end

