-- ==== Sys2Proof/Machine/Clock.lean ====
section
/-! DEFINITION. One rising edge of `clk` (R34 to R37, R127, R128). -/

namespace Sys2Proof.Machine

/-- An accepting edge with `cmd_word = w` (R35). With `LAT = 0` the command completes at this
edge. -/
def acceptEdge (w : Nat) (s : State) : Host.Outcome State Fault Refusal :=
  if s.cfg.lat = 0 then exec (decode s.cfg w) (s.latchWord w)
  else .next (s.latchWord w).startFlight

/-- An edge with a command in flight (R36). The command that completes is the one in `LATCH`. -/
def flightEdge (s : State) : Host.Outcome State Fault Refusal :=
  if s.cnt = 0 then exec (decode s.cfg s.latch) s.endFlight
  else .next s.countDown

/-- One rising edge with inputs `e`. Reset wins (R128); acceptance needs `cmd_valid` and `cmd_ready`
(R35); every other edge holds every register (R37). -/
def clockEdge (e : EdgeIn) (s : State) : Host.Outcome State Fault Refusal :=
  if e.rst then .next s.resetEdge
  else if e.cmdValid && s.cmdReady e.rst then acceptEdge (s.cfg.cmdPort e.cmdWord) s
  else if s.busy then flightEdge s
  else .next s

/-- `s` with the command word `w` where the next edge takes its command from (log entry 3): on the
command port when `LAT = 0` (R35), in `LATCH` at its completion edge when `LAT >= 1` (R36). -/
def presentWord (s : State) (w : Nat) : State :=
  if s.cfg.lat = 0 then { s with busy := false, edges := ⟨false, true, w⟩ :: s.edges }
  else { s with latch := s.cfg.cmdPort w, busy := true, cnt := 0, edges := EdgeIn.idle :: s.edges }

end Sys2Proof.Machine
end

