-- ==== Sys2Proof/Machine/Step.lean ====
section
/-! DEFINITION. The step: one rising edge of `clk` with the host's next inputs. -/

namespace Sys2Proof.Machine

/-- One rising edge of `clk` (R23), taking the host's next inputs. -/
def step (s : State) : Host.Outcome State Fault Refusal := clockEdge s.edgeIn s.popEdge

/-- `s` with the word whose low `nbits` bits are those of `w`, and whose other bits are 0, where the
next step takes its command from (log entry 3). -/
def State.withFetchWord (s : State) (nbits w : Nat) : State := presentWord s (bitField w 0 nbits)

end Sys2Proof.Machine
end

