-- ==== Sys2Proof/Machine/ExecFn.lean ====
section
/-! DEFINITION. `Exec` as the spec names it: one command word to one response value (R16). -/

namespace Sys2Proof.Machine

/-- The response of a command. It reads the parameters `NMAX` and `K` only (R17). -/
def responseOf (c : Config) : Instr → Response
  | .ppos na => pposResponse c na
  | .synd na a => syndResponse c na a
  | .corr na sy a => corrResponse c na sy a
  | .diff na nb a b => diffResponse c na nb a b
  | .reserved _ _ => reservedResponse

/-- `Exec(cmd)`, "the normative meaning of every command" (R16). -/
def execFn (c : Config) (w : Nat) : Response := responseOf c (decode c w)

/-- A codeword `a` of length `n` is valid when SYND on it gives `SYN = 0` (R91). The block never
tests it. -/
def validCodeword (c : Config) (n : Nat) (a : Nat) : Prop :=
  1 ≤ n ∧ n ≤ c.nmax ∧ (responseOf c (.synd n a)).syn = 0

end Sys2Proof.Machine
end

