-- ==== Sys2Proof/Machine/HostSide.lean ====
section
/-! DEFINITION. What the spec defines for the host that drives the block: string conversion
(R42) and reading out sequences (R78, R86, R107). -/

namespace Sys2Proof.Machine

/-! ### Strings (R42) -/

/-- The vector of a string, its first character at position 1, that is bit 0; none if a character is
neither `'0'` nor `'1'` (R42). -/
def vectorOfChars : List Char → Option Nat
  | [] => some 0
  | ch :: rest =>
    match vectorOfChars rest with
    | none => none
    | some v => if ch = '0' then some (2 * v) else if ch = '1' then some (2 * v + 1) else none

/-- The first `n` positions of a vector as a string, position 1 first (R42, R72). -/
def charsOfVector (n : Nat) (a : Nat) : List Char :=
  (List.range n).map fun j => if a.testBit j then '1' else '0'

/-- How a host converts a string before it issues a command: `NA` and `A`, or what it
reports while it issues nothing (R42). For a length `L` in `NMAX+1 .. 2^K-1` the spec does not say
where `A[c]` goes for `c >= NMAX`: the model answers the whole `L`-bit number, uncut
(DESIGN CHOICE, log entry 17). -/
def hostConvert (c : Config) (cs : List Char) : Except ErrCode (Nat × Nat) :=
  match cs with
  | [] => .error .invalidInput
  | _ :: _ =>
    match vectorOfChars cs with
    | none => .error .invalidInput
    | some a => if 2 ^ c.k - 1 < cs.length then .error .capacity else .ok (cs.length, a)

/-! ### Reading out sequences -/

/-- The parity positions of a response, from its count (R78). -/
def paritySequence (r : Response) : List Nat := (List.range r.pcnt).map fun k => 2 ^ k

/-- The parity positions of a response, from its mask (R78). -/
def paritySequenceOfMask (c : Config) (r : Response) : List Nat :=
  ((List.range c.k).filter fun k => r.pmask.testBit k).map fun k => 2 ^ k

/-- The parity results of a SYND response, one per parity position (R86). -/
def parityResults (r : Response) : List Bool := (List.range r.pcnt).map fun k => r.syn.testBit k

/-- The positions where two codewords differ, from a DIFF response (R107). -/
def diffSequence (c : Config) (r : Response) : List Nat :=
  ((List.range c.nmax).filter fun j => r.diff.testBit j).map fun j => j + 1

end Sys2Proof.Machine
end

