-- ==== Sys2Proof/Machine/Assembler.lean ====
section
/-! DEFINITION. The assembler syntax (R70), assembly (R69) and disassembly (R72). They carry no
semantics (D21): a line stands for one command word. -/

namespace Sys2Proof.Machine

/-- A codeword operand: "either a string in double quotes, with position 1 first, or a vector
literal" (R70). -/
inductive CwOperand where
  | str (cs : List Char)
  | vec (v : Nat)
  deriving DecidableEq, Repr

/-- The lines of R70. -/
inductive AsmLine where
  /-- `PPOS n` -/
  | ppos (n : Nat)
  /-- `SYND n, cw` -/
  | synd (n : Nat) (cw : CwOperand)
  /-- `SYND "str"`, `n` = length of `"str"` -/
  | syndStr (str : List Char)
  /-- `CORR n, s, cw` -/
  | corr (n s : Nat) (cw : CwOperand)
  /-- `CORR s, "str"` -/
  | corrStr (s : Nat) (str : List Char)
  /-- `DIFF na, nb, cwa, cwb` -/
  | diff (na nb : Nat) (cwa cwb : CwOperand)
  /-- `DIFF "stra", "strb"` -/
  | diffStr (stra strb : List Char)
  /-- `.cmd 0x<hex>`, "a raw command word, for reserved opcodes"; the model takes one of any `OP`
  (DESIGN CHOICE, log entry 18) -/
  | raw (w : Nat)
  deriving DecidableEq, Repr

/-- Why an assembler refuses a line (R69, R70). -/
inductive AsmError where
  /-- The text has none of the forms of R70. -/
  | notALine
  /-- A character other than `'0'` or `'1'`, or an empty string: the source's `InvalidInput`
  (R42, R70; log entry 10). -/
  | invalidInput
  /-- "It also refuses a string longer than `NMAX`" (R70). -/
  | stringTooLong
  /-- "An assembler refuses an operand that does not fit and never truncates it" (R69). -/
  | operandTooWide
  deriving DecidableEq, Repr

/-! ### Assembly -/

/-- The vector of a string operand (R42, R70). -/
def assembleStr (c : Config) (cs : List Char) : Except AsmError Nat :=
  match cs with
  | [] => .error .invalidInput
  | _ :: _ =>
    match vectorOfChars cs with
    | none => .error .invalidInput
    | some a => if c.nmax < cs.length then .error .stringTooLong else .ok a

/-- The vector of a codeword operand (R70). -/
def assembleCw (c : Config) : CwOperand → Except AsmError Nat
  | .str cs => assembleStr c cs
  | .vec v => .ok v

/-- The word of a command whose operands all fit (R69). -/
def assembleInstr (c : Config) (i : Instr) : Except AsmError Nat :=
  if i.wellFormed c then .ok (encode c i) else .error .operandTooWide

/-- The command word of a line (R69, R70). Of several bad operands one is reported: a bad string
before a number or a vector that does not fit, and of two bad strings the first (DESIGN CHOICE,
log entry 10). `.cmd` takes every word that fits, whatever its `OP` (DESIGN CHOICE, log entry 18). -/
def assemble (c : Config) : AsmLine → Except AsmError Nat
  | .ppos n => assembleInstr c (.ppos n)
  | .synd n cw =>
    match assembleCw c cw with
    | .ok a => assembleInstr c (.synd n a)
    | .error e => .error e
  | .syndStr str =>
    match assembleStr c str with
    | .ok a => assembleInstr c (.synd str.length a)
    | .error e => .error e
  | .corr n s cw =>
    match assembleCw c cw with
    | .ok a => assembleInstr c (.corr n s a)
    | .error e => .error e
  | .corrStr s str =>
    match assembleStr c str with
    | .ok a => assembleInstr c (.corr str.length s a)
    | .error e => .error e
  | .diff na nb cwa cwb =>
    match assembleCw c cwa, assembleCw c cwb with
    | .ok a, .ok b => assembleInstr c (.diff na nb a b)
    | .error e, _ => .error e
    | .ok _, .error e => .error e
  | .diffStr stra strb =>
    match assembleStr c stra, assembleStr c strb with
    | .ok a, .ok b => assembleInstr c (.diff stra.length strb.length a b)
    | .error e, _ => .error e
    | .ok _, .error e => .error e
  | .raw w => if w < 2 ^ c.cwW then .ok w else .error .operandTooWide

/-! ### Disassembly (R72) -/

/-- "that length is in `1..NMAX`" (R72). -/
def inRange (c : Config) (n : Nat) : Bool := decide (1 ≤ n) && decide (n ≤ c.nmax)

/-- A codeword field in the long form: a string when its length is in range, else a vector literal
(R72, log entry 11). -/
def printCw (c : Config) (n : Nat) (a : Nat) : CwOperand :=
  if inRange c n then .str (charsOfVector n a) else .vec a

/-- The line a word prints as; every `CW_W`-bit word prints as one (R72). -/
def disassemble (c : Config) (w : Nat) : AsmLine :=
  match decode c w with
  | .ppos n => .ppos n
  | .synd n a => if inRange c n then .syndStr (charsOfVector n a) else .synd n (.vec a)
  | .corr n s a => if inRange c n then .corrStr s (charsOfVector n a) else .corr n s (.vec a)
  | .diff na nb a b =>
    if inRange c na && inRange c nb then .diffStr (charsOfVector na a) (charsOfVector nb b)
    else .diff na nb (printCw c na a) (printCw c nb b)
  | .reserved _ _ => .raw w

end Sys2Proof.Machine
end

