-- ==== Sys2Proof/Machine/AsmText.lean ====
section
/-! DEFINITION. The text of an assembler line (R70, R72), as a list of characters (log
entries 11 and 12). -/

namespace Sys2Proof.Machine

/-! ### Printing -/

/-- A digit of base up to 16. -/
def digitChar (d : Nat) : Char :=
  if d < 10 then Char.ofNat (48 + d) else Char.ofNat (55 + d)

/-- `v` in hex, `digits` digits. -/
def hexDigits : Nat → Nat → List Char
  | 0, _ => []
  | digits + 1, v => hexDigits digits (v / 16) ++ [digitChar (v % 16)]

/-- `v` in decimal; `fuel` bounds the number of digits. -/
def decDigits : Nat → Nat → List Char
  | 0, _ => []
  | fuel + 1, v => (if v < 10 then [] else decDigits fuel (v / 10)) ++ [digitChar (v % 10)]

/-- A length or a syndrome "printed as numbers" (R72): R70 reads decimal and hex, and the model prints
decimal (DESIGN CHOICE, log entry 11). -/
def printNat (v : Nat) : List Char := decDigits (v + 1) v

/-- A vector literal of `width` bits: `0x` and as many hex digits as the width takes (R72; DESIGN
CHOICE, log entry 11). -/
def printHex (width v : Nat) : List Char := ['0', 'x'] ++ hexDigits ((width + 3) / 4) v

/-- A string in double quotes. -/
def printStr (cs : List Char) : List Char := ['"'] ++ cs ++ ['"']

/-- A codeword operand. -/
def printOperand (c : Config) : CwOperand → List Char
  | .str cs => printStr cs
  | .vec v => printHex c.nmax v

/-- What separates two operands. -/
def comma : List Char := [',', ' ']

/-- A line as text (R70). -/
def printLine (c : Config) : AsmLine → List Char
  | .ppos n => "PPOS ".toList ++ printNat n
  | .synd n cw => "SYND ".toList ++ printNat n ++ comma ++ printOperand c cw
  | .syndStr str => "SYND ".toList ++ printStr str
  | .corr n s cw => "CORR ".toList ++ printNat n ++ comma ++ printNat s ++ comma ++ printOperand c cw
  | .corrStr s str => "CORR ".toList ++ printNat s ++ comma ++ printStr str
  | .diff na nb cwa cwb =>
    "DIFF ".toList ++ printNat na ++ comma ++ printNat nb ++ comma ++ printOperand c cwa ++ comma ++
      printOperand c cwb
  | .diffStr stra strb => "DIFF ".toList ++ printStr stra ++ comma ++ printStr strb
  | .raw w => ".cmd ".toList ++ printHex c.cwW w

/-! ### Reading -/

/-- An operand as it stands in the text. -/
inductive Token where
  | quoted (cs : List Char)
  | dec (v : Nat)
  | hex (v : Nat)
  | bin (v : Nat)
  deriving DecidableEq, Repr

/-- The value of a digit, in either letter case. -/
def digitValue (ch : Char) : Option Nat :=
  let v := ch.toNat
  if 48 ≤ v ∧ v ≤ 57 then some (v - 48)
  else if 65 ≤ v ∧ v ≤ 70 then some (v - 55)
  else if 97 ≤ v ∧ v ≤ 102 then some (v - 87)
  else none

/-- The digits `cs` read after `acc`. -/
def readDigits (base acc : Nat) : List Char → Option Nat
  | [] => some acc
  | ch :: rest =>
    match digitValue ch with
    | some d => if d < base then readDigits base (base * acc + d) rest else none
    | none => none

/-- One operand, without the spaces around it. -/
def readToken (cs : List Char) : Option Token :=
  match cs with
  | [] => none
  | '0' :: 'x' :: d :: ds => (readDigits 16 0 (d :: ds)).map .hex
  | '0' :: 'b' :: d :: ds => (readDigits 2 0 (d :: ds)).map .bin
  | '"' :: rest =>
    if rest.getLast? = some '"' then some (.quoted rest.dropLast) else none
  | d :: ds => (readDigits 10 0 (d :: ds)).map .dec

/-- The text without its leading spaces. -/
def dropSpaces (cs : List Char) : List Char := cs.dropWhile (· == ' ')

/-- The text without the spaces around it. -/
def trimSpaces (cs : List Char) : List Char := (dropSpaces (dropSpaces cs).reverse).reverse

/-- The text cut at the commas that stand outside quotes; `piece` is the piece being read,
backwards. -/
def splitCommas (quoted : Bool) (piece : List Char) : List Char → List (List Char)
  | [] => [piece.reverse]
  | ch :: rest =>
    if ch = ',' ∧ quoted = false then piece.reverse :: splitCommas false [] rest
    else splitCommas (quoted ^^ (ch == '"')) (ch :: piece) rest

/-- The operands of a line. -/
def readOperands (cs : List Char) : List (Option Token) :=
  (splitCommas false [] cs).map fun piece => readToken (trimSpaces piece)

/-- "`n`, `na`, `nb` and `s` are unsigned decimal or hex integers" (R70). -/
def Token.int : Token → Option Nat
  | .dec v => some v
  | .hex v => some v
  | .bin _ => none
  | .quoted _ => none

/-- A codeword is a string or a literal `0x..` or `0b..` (R70). -/
def Token.cw : Token → Option CwOperand
  | .quoted cs => some (.str cs)
  | .hex v => some (.vec v)
  | .bin v => some (.vec v)
  | .dec _ => none

/-- The operands of each mnemonic (R70). -/
def readLineParts (mnemonic : List Char) (ops : List (Option Token)) : Option AsmLine :=
  if mnemonic = "PPOS".toList then
    match ops with
    | [some n] => n.int.map .ppos
    | _ => none
  else if mnemonic = "SYND".toList then
    match ops with
    | [some (.quoted cs)] => some (.syndStr cs)
    | [some n, some cw] => n.int.bind fun n => cw.cw.map fun cw => .synd n cw
    | _ => none
  else if mnemonic = "CORR".toList then
    match ops with
    | [some s, some (.quoted cs)] => s.int.map fun s => .corrStr s cs
    | [some n, some s, some cw] =>
      n.int.bind fun n => s.int.bind fun s => cw.cw.map fun cw => .corr n s cw
    | _ => none
  else if mnemonic = "DIFF".toList then
    match ops with
    | [some (.quoted ca), some (.quoted cb)] => some (.diffStr ca cb)
    | [some na, some nb, some cwa, some cwb] =>
      na.int.bind fun na => nb.int.bind fun nb => cwa.cw.bind fun a => cwb.cw.map fun b =>
        .diff na nb a b
    | _ => none
  else if mnemonic = ".cmd".toList then
    match ops with
    | [some (.hex w)] => some (.raw w)
    | _ => none
  else none

/-- The mnemonic of a line of text and its operands: "mnemonic first, operands separated by commas"
(R70). -/
def splitLine (cs : List Char) : List Char × List (Option Token) :=
  let text := trimSpaces cs
  let mnemonic := text.takeWhile (· != ' ')
  (mnemonic, readOperands (text.drop mnemonic.length))

/-- A line of text (R70). -/
def readLine (cs : List Char) : Except AsmError AsmLine :=
  match readLineParts (splitLine cs).1 (splitLine cs).2 with
  | some line => .ok line
  | none => .error .notALine

/-- The command word of a line of text (R69, R70). -/
def assembleText (c : Config) (cs : List Char) : Except AsmError Nat :=
  match readLine cs with
  | .ok line => assemble c line
  | .error e => .error e

/-- The text a word prints as (R72). -/
def disassembleText (c : Config) (w : Nat) : List Char := printLine c (disassemble c w)

end Sys2Proof.Machine
end

