-- ==== Sys2Proof/Machine/Transaction.lean ====
section
/-! DEFINITION. The transaction-level step of R138, beside the clocked one. -/

namespace Sys2Proof.Machine

/-- The events of R138. -/
inductive Event where
  | reset
  | issue (w : Nat)
  | tick
  | idle
  deriving DecidableEq, Repr

/-- What an event does, and a fault where it is not enabled (R138, log entry 9). -/
def Event.apply (v : Event) (s : State) : Host.Outcome State Fault Refusal :=
  match v with
  | .reset => .next s.resetEdge
  | .issue w => if s.busy then .fault .issueWhileBusy else acceptEdge w s
  | .tick => if s.busy then flightEdge s else .fault .tickWhileIdle
  | .idle => if s.busy then .fault .idleWhileBusy else .next s

/-- The event an edge with inputs `e` is, in state `s`: reset first (R128), then the command in
flight, whose edge lets no command in (R136). -/
def eventAt (e : EdgeIn) (s : State) : Event :=
  if e.rst then .reset
  else if s.busy then .tick
  else if e.cmdValid then .issue (s.cfg.cmdPort e.cmdWord)
  else .idle

/-- The command-level step of R138, which collapses an Issue and its Ticks:
`rsp := Exec(c); valid := true`. `CNT` is left at 0, where its Ticks leave it. -/
def commandStep (w : Nat) (s : State) : Host.Outcome State Fault Refusal :=
  if s.busy then .fault .issueWhileBusy else exec (decode s.cfg w) { s with latch := w, cnt := 0 }

end Sys2Proof.Machine
end

