-- ==== Sys2Proof/Machine/Macros.lean ====
section
/-! DEFINITION. The host-level macros CHECK and DECODE (R71). "Each expands to commands plus a host
test of the response": the commands are lines of R70, so an operand that the assembler refuses is
refused here too (R69). They run at the command level of R138 (log entry 15). -/

namespace Sys2Proof.Machine

/-- The macros of R71. The codeword takes either form of R70. -/
inductive MacroLine where
  /-- `CHECK n, cw` -/
  | check (n : Nat) (cw : CwOperand)
  /-- `DECODE n, cw` -/
  | decode (n : Nat) (cw : CwOperand)
  deriving DecidableEq, Repr

/-- The host assembles one line and issues its word; a line that is refused issues nothing. -/
def issueLine (line : AsmLine) (s : State) : Except AsmError (Host.Outcome State Fault Refusal) :=
  match assemble s.cfg line with
  | .ok w => .ok (commandStep w s)
  | .error e => .error e

/-- The host tests of CHECK: `RSP_ERR == 0 and RSP_SYN == 0`. -/
def checkPasses (s : State) : Bool := s.rspErr == 0 && s.rspSyn == 0

/-- `CHECK n, cw`: the state after its SYND, with what the host's test says of it. -/
def macroCheck (n : Nat) (cw : CwOperand) (s : State) :
    Except AsmError (Host.Outcome (State × Bool) Fault Refusal) :=
  match issueLine (.synd n cw) s with
  | .ok (.next t) => .ok (.next (t, checkPasses t))
  | .ok (.fault f) => .ok (.fault f)
  | .ok (.refused r) => .ok (.refused r)
  | .error e => .error e

/-- `DECODE n, cw`: SYND, then, unless `RSP_ERR` says to stop, CORR with the syndrome taken from
the response. The state it stops in shows `RSP_ERR` (log entry 15). -/
def macroDecode (n : Nat) (cw : CwOperand) (s : State) :
    Except AsmError (Host.Outcome State Fault Refusal) :=
  match issueLine (.synd n cw) s with
  | .ok (.next t) => if t.rspErr = 0 then issueLine (.corr n t.rspSyn cw) t else .ok (.next t)
  | .ok (.fault f) => .ok (.fault f)
  | .ok (.refused r) => .ok (.refused r)
  | .error e => .error e

/-- A macro as text, written like a line of R70 (log entry 12). -/
def readMacro (cs : List Char) : Except AsmError MacroLine :=
  match splitLine cs with
  | (mnemonic, [some n, some cw]) =>
    match n.int, cw.cw with
    | some n, some cw =>
      if mnemonic = "CHECK".toList then .ok (.check n cw)
      else if mnemonic = "DECODE".toList then .ok (.decode n cw)
      else .error .notALine
    | some _, none => .error .notALine
    | none, some _ => .error .notALine
    | none, none => .error .notALine
  | (_, _) => .error .notALine

end Sys2Proof.Machine
end

