-- ==== Sys2Proof/Safety.lean ====
section
/-! DEFINITION. The terms claims use: legal responses, the invariant of the block's registers, and
runs. -/

namespace Sys2Proof.Machine

/-- The legal values of the response fields (R24 to R29, R45, R64): each fits its width, a mask is
`2^PCNT - 1`, no syndrome bit lies at or above `PCNT`, and an error carries no result. -/
structure Response.Legal (c : Config) (r : Response) : Prop where
  err_le : r.err.toNat ≤ 5
  pcnt_le : r.pcnt ≤ c.k
  pmask_eq : r.pmask = 2 ^ r.pcnt - 1
  syn_lt : r.syn < 2 ^ r.pcnt
  cw_lt : r.cw < 2 ^ c.nmax
  diff_lt : r.diff < 2 ^ c.nmax
  error_empty : r.err ≠ 0 → r = ⟨r.err, 0, 0, 0, 0, 0⟩

/-- What every state reached from a reset edge has: legal response registers, registers that fit
their widths (R22), and the handshake registers as R30 and R33 say. -/
structure State.Inv (s : State) : Prop where
  legal : s.response.Legal s.cfg
  latch_lt : s.latch < 2 ^ s.cfg.cwW
  /-- `CNT` counts down from `LAT - 1` (R35). -/
  cnt_lt : s.cnt < max 1 s.cfg.lat
  /-- `CNT` is 0 unless a command is in flight (R36, R39). -/
  cnt_idle : s.busy = false → s.cnt = 0
  /-- "With `LAT = 0`, `BUSY` is always 0" (R33). -/
  lat_zero : s.cfg.lat = 0 → s.busy = false
  /-- `RSP_VALID` is 0 while a command is in flight (R30). -/
  flight : s.busy = true → s.rspValid = false

/-! ### The source's own definitions, to hold the datapath against -/

/-- The check for parity position `p` of codeword `a` of length `n`: "XOR over all 1-indexed positions i
in [1, n] such that (i AND p) != 0, of the bit at position i" (R82). -/
def parityCheck (n : Nat) (a : Nat) (p : Nat) : Bool :=
  (((List.range' 1 n).filter fun i => i &&& p != 0).map fun i => a.testBit (i - 1)).foldr xor false

/-- `XOR over { i in 1..n : A[i-1] = 1 } of i` (R89). -/
def xorOfOnes (n : Nat) (a : Nat) : Nat :=
  ((List.range' 1 n).filter fun i => a.testBit (i - 1)).foldr (· ^^^ ·) 0

/-- `cs` is exactly `n` characters, position 1 first, and spells the first `n` positions of the
vector `a` (R42, R72). -/
def Spells (cs : List Char) (n : Nat) (a : Nat) : Prop :=
  cs.length = n ∧ ∀ j, j < n → cs[j]? = some (if a.testBit j then '1' else '0')

/-! ### Runs -/

/-- `s` with `RSP_VALID = 1` and these six response fields, and everything else as it was: what a
completion leaves (R36, R37). -/
def State.showing (s : State) (err : ErrBits) (pcnt : Nat) (pmask syn cw diff : Nat) : State where
  rspValid := true
  rspErr := err
  rspPcnt := pcnt
  rspPmask := pmask
  rspSyn := syn
  rspCw := cw
  rspDiff := diff
  latch := s.latch
  busy := s.busy
  cnt := s.cnt
  cfg := s.cfg
  edges := s.edges

/-- The edges of a host that presents each word in turn; after each come edges that the host
may use as it likes. -/
def hostStream (stream : List (Nat × List EdgeIn)) : List EdgeIn :=
  stream.flatMap fun p => ⟨false, true, p.1⟩ :: p.2

/-- A run has ended: the host issues nothing more and no command is in flight (R141). -/
def State.ended (s : State) : Prop := s.edges = [] ∧ s.busy = false

/-- `n` edges. -/
def run : Nat → State → Host.Outcome State Fault Refusal
  | 0, s => .next s
  | n + 1, s =>
    match step s with
    | .next t => run n t
    | .fault f => .fault f
    | .refused r => .refused r

end Sys2Proof.Machine
end

