-- ==== Sys2Proof/Certificates/Slice0/Obligations.lean ====
section
/-! DEFINITION. The statements for the provers. Each holds for every configuration, since the
configuration is part of the state (log entry 1). Each docstring names the rule of spec/ it
formalises. -/

open Sys2Proof Sys2Proof.Machine

/-! ### Encoding -/

/-- Decoding the word of a well-formed command gives the command back (30_encoding.md R53, R61,
R69). -/
def Obligations.DecodeOfEncode : Prop :=
  ∀ (c : Config) (i : Instr), i.wellFormed c = true → decodeWord c (encode c i) = .ok i

/-- Words of 95_test_vectors.md decode to the commands they stand for (R68). -/
def Obligations.SpecWordsDecode : Prop :=
  decodeWord Config.reference 0x00000038 = .ok (.ppos 7) ∧
  decodeWord Config.reference 0x003B8039 = .ok (.synd 7 0x77) ∧
  decodeWord Config.reference 0x003BA03A = .ok (.corr 7 4 0x77) ∧
  decodeWord Config.reference 0x06878443 = .ok (.diff 8 8 0x0F 0x0D) ∧
  decodeWord Config.reference 0x00000004 = .ok (.reserved 4 0)

/-- R61, with the field places of R53: `OP`, bits `[2:0]`, alone selects the command, and each
operand is the field of the table. -/
def Obligations.DecodeReadsTheCommandFields : Prop :=
  ∀ (c : Config) (w : Nat),
    (w % 8 = 0 → decode c w = .ppos (w / 2 ^ 3 % 2 ^ c.k)) ∧
    (w % 8 = 1 → decode c w = .synd (w / 2 ^ 3 % 2 ^ c.k) (w / 2 ^ (3 + 3 * c.k) % 2 ^ c.nmax)) ∧
    (w % 8 = 2 → decode c w = .corr (w / 2 ^ 3 % 2 ^ c.k) (w / 2 ^ (3 + 2 * c.k) % 2 ^ c.k)
      (w / 2 ^ (3 + 3 * c.k) % 2 ^ c.nmax)) ∧
    (w % 8 = 3 → decode c w = .diff (w / 2 ^ 3 % 2 ^ c.k) (w / 2 ^ (3 + c.k) % 2 ^ c.k)
      (w / 2 ^ (3 + 3 * c.k) % 2 ^ c.nmax) (w / 2 ^ (3 + 3 * c.k + c.nmax) % 2 ^ c.nmax)) ∧
    (4 ≤ w % 8 → ∃ rest, decode c w = .reserved (w % 8) rest)

/-- R69: a command word assembled from operands that fit holds each operand in its field, a response
word splits into its fields at the bit places of R60, and an operand that does not fit is refused.
`rsp_word` is the concatenation of the six response registers at those places, whatever `RSP_VALID`
is. -/
def Obligations.WordsAssembleAndSplit : Prop :=
  ∀ c : Config,
    (∀ op na nb s a b : Nat, op < 8 → na < 2 ^ c.k → nb < 2 ^ c.k → s < 2 ^ c.k → a < 2 ^ c.nmax →
      b < 2 ^ c.nmax →
      assembleWord c op na nb s a b =
        op ||| (na <<< 3) ||| (nb <<< (3 + c.k)) ||| (s <<< (3 + 2 * c.k)) |||
          (a <<< (3 + 3 * c.k)) ||| (b <<< (3 + 3 * c.k + c.nmax)) ∧
      assembleWord c op na nb s a b < 2 ^ c.cwW ∧
      opField (assembleWord c op na nb s a b) = op ∧
      naField c (assembleWord c op na nb s a b) = na ∧
      nbField c (assembleWord c op na nb s a b) = nb ∧
      sField c (assembleWord c op na nb s a b) = s ∧
      aField c (assembleWord c op na nb s a b) = a ∧
      bField c (assembleWord c op na nb s a b) = b) ∧
    (∀ r : Response, r.pcnt < 2 ^ c.ck → r.pmask < 2 ^ c.k → r.syn < 2 ^ c.k → r.cw < 2 ^ c.nmax →
      r.diff < 2 ^ c.nmax →
      responseWord c r < 2 ^ c.rwW ∧ splitResponse c (responseWord c r) = r) ∧
    (∀ w : Nat, splitResponse c w =
      ⟨BitVec.ofNat 3 (w % 8), w / 2 ^ 3 % 2 ^ c.ck, w / 2 ^ (3 + c.ck) % 2 ^ c.k,
        w / 2 ^ (3 + c.ck + c.k) % 2 ^ c.k, w / 2 ^ (3 + c.ck + 2 * c.k) % 2 ^ c.nmax,
        w / 2 ^ (3 + c.ck + 2 * c.k + c.nmax) % 2 ^ c.nmax⟩) ∧
    (∀ s : State, s.cfg = c →
      s.rspWord =
        s.rspErr.toNat ||| (s.rspPcnt <<< 3) ||| (s.rspPmask <<< (3 + c.ck)) |||
          (s.rspSyn <<< (3 + c.ck + c.k)) ||| (s.rspCw <<< (3 + c.ck + 2 * c.k)) |||
          (s.rspDiff <<< (3 + c.ck + 2 * c.k + c.nmax)) ∧
      (s.Inv → s.rspWord < 2 ^ c.rwW ∧ splitResponse c s.rspWord = s.response)) ∧
    (∀ i : Instr, i.wellFormed c = false → assembleInstr c i = .error .operandTooWide)

/-- R62 and R44: a field the command does not read, and a codeword bit at or above its length, never
changes the response. -/
def Obligations.UnreadBitsNeverChangeTheResponse : Prop :=
  ∀ (c : Config) (op op' na nb nb' s s' a a' b b' : Nat),
    op < 8 → op' < 8 → na < 2 ^ c.k → nb < 2 ^ c.k → nb' < 2 ^ c.k → s < 2 ^ c.k → s' < 2 ^ c.k →
    a < 2 ^ c.nmax → a' < 2 ^ c.nmax → b < 2 ^ c.nmax → b' < 2 ^ c.nmax →
    execFn c (assembleWord c 0 na nb s a b) = execFn c (assembleWord c 0 na nb' s' a' b') ∧
    (a % 2 ^ na = a' % 2 ^ na →
      execFn c (assembleWord c 1 na nb s a b) = execFn c (assembleWord c 1 na nb' s' a' b') ∧
      execFn c (assembleWord c 2 na nb s a b) = execFn c (assembleWord c 2 na nb' s a' b') ∧
      (b % 2 ^ nb = b' % 2 ^ nb →
        execFn c (assembleWord c 3 na nb s a b) = execFn c (assembleWord c 3 na nb s' a' b'))) ∧
    (∀ na', na' < 2 ^ c.k → 4 ≤ op → 4 ≤ op' →
      execFn c (assembleWord c op na nb s a b) = execFn c (assembleWord c op' na' nb' s' a' b'))

/-! ### PPOS and the parity-position generator -/

/-- PPOS answers the mask of the low `bitlen(n)` bits and the count `bitlen(n)`; its errors are
`CAPACITY` and `INVALID_INPUT` (40_parity_positions.md R73, R76). -/
def Obligations.PposAnswersParityPositions : Prop :=
  ∀ (s : State) (na : Nat),
    (1 ≤ na → na ≤ s.cfg.nmax →
      exec (.ppos na) s = .next (s.showing 0 (bitlen na) (2 ^ bitlen na - 1) 0 0 0)) ∧
    (s.cfg.nmax < na → exec (.ppos na) s = .next (s.showing 4 0 0 0 0 0)) ∧
    (na = 0 → exec (.ppos na) s = .next (s.showing 1 0 0 0 0 0))

/-- R75: for a length of `K` bits, `PMASK[k]` is 1 exactly when `2^k <= n`, and
`PCNT = bitlen(n) = popcount(PMASK)`. -/
def Obligations.MaskMarksPowersUpToLength : Prop :=
  ∀ (c : Config) (n : Nat), n < 2 ^ c.k →
    (∀ k, k < c.k → ((ppgMask c n).testBit k = true ↔ 2 ^ k ≤ n)) ∧
    (∀ k, k < c.k → (ppgMask c n).testBit k = decide (n >>> k ≠ 0)) ∧
    ppgMask c n < 2 ^ c.k ∧
    ppgCount n = bitlen n ∧ ppgCount n = popcount (ppgMask c n)

/-- R76: the bounds of the parity-position generator. -/
def Obligations.ParityPositionBounds : Prop :=
  ∀ (c : Config) (n : Nat), 1 ≤ n → n ≤ c.nmax →
    1 ≤ ppgCount n ∧ ppgCount n ≤ c.k ∧ ppgMask c n = 2 ^ ppgCount n - 1 ∧
    ∀ k, ppgCount n ≤ k → (ppgMask c n).testBit k = false

/-- R77 and R78: the sequence read from a successful PPOS or SYND response, in either of the two forms,
is exactly the powers of two up to `n`, strictly ascending; SYND answers the same count and mask as
PPOS. -/
def Obligations.ParitySequenceReadOut : Prop :=
  ∀ (c : Config) (n : Nat) (a : Nat), 1 ≤ n → n ≤ c.nmax →
    paritySequence (responseOf c (.ppos n)) = paritySequenceOfMask c (responseOf c (.ppos n)) ∧
    (paritySequence (responseOf c (.ppos n))).Pairwise (· < ·) ∧
    (∀ p, p ∈ paritySequence (responseOf c (.ppos n)) ↔ (∃ k, p = 2 ^ k) ∧ p ≤ n) ∧
    (responseOf c (.synd n a)).pcnt = (responseOf c (.ppos n)).pcnt ∧
    (responseOf c (.synd n a)).pmask = (responseOf c (.ppos n)).pmask

/-! ### SYND, the parity-check array and the syndrome assembly mux -/

/-- SYND answers the XOR of the positions that hold a 1 (R89), with the count and mask of R81. Its
errors are `CAPACITY` (R116) and `INVALID_INPUT` (R117). -/
def Obligations.SyndAnswersXorOfOnePositions : Prop :=
  ∀ (s : State) (na : Nat) (a : Nat),
    (1 ≤ na → na ≤ s.cfg.nmax →
      exec (.synd na a) s =
        .next (s.showing 0 (bitlen na) (2 ^ bitlen na - 1) (xorOfOnes na a) 0 0)) ∧
    (s.cfg.nmax < na → exec (.synd na a) s = .next (s.showing 4 0 0 0 0 0)) ∧
    (na = 0 → exec (.synd na a) s = .next (s.showing 1 0 0 0 0 0))

/-- R82, R85 and R86: parity result `k` is the source's check for parity position `2^k`, the mux
gates it by the mask, the syndrome is the sum of the results, result `k` at digit `k`, and the
host reads the results back from the response in the order of the parity positions. -/
def Obligations.SyndromeIsSumOfParityChecks : Prop :=
  ∀ (c : Config) (n : Nat) (a : Nat), 1 ≤ n → n ≤ c.nmax →
    (∀ k, k < bitlen n → (pca c a (pen c n)).testBit k = parityCheck n a (2 ^ k)) ∧
    (∀ k, k < c.k → (responseOf c (.synd n a)).syn.testBit k =
      if (ppgMask c n).testBit k then (pca c a (pen c n)).testBit k else false) ∧
    (responseOf c (.synd n a)).syn =
      ((List.range (bitlen n)).map fun k => (parityCheck n a (2 ^ k)).toNat * 2 ^ k).sum ∧
    parityResults (responseOf c (.synd n a)) =
      (List.range (bitlen n)).map fun k => parityCheck n a (2 ^ k)

/-- R88: no syndrome overflows its field, and a syndrome can exceed the length. -/
def Obligations.SyndromeBounds : Prop :=
  ∀ (c : Config) (n : Nat) (a : Nat), 1 ≤ n → n ≤ c.nmax →
    (responseOf c (.synd n a)).syn ≤ 2 ^ bitlen n - 1 ∧ 2 ^ bitlen n - 1 ≤ 2 ^ c.k - 1 ∧
    (6 ≤ c.nmax → (responseOf c (.synd 6 0b001100)).syn = 7 ∧
      (responseOf c (.synd 6 0b001100)).err = 0)

/-- R90: above the last parity slot the parity-check array already gives 0, and the mux gives 0
whatever the array gives. -/
def Obligations.AssemblyGateNeverChangesAValue : Prop :=
  ∀ (c : Config) (n : Nat) (a : Nat) (k : Nat), n ≤ c.nmax → bitlen n ≤ k →
    (∀ j, (pen c n).testBit j = true → (j + 1).testBit k = false) ∧
    (pca c a (pen c n)).testBit k = false ∧
    ∀ pc : Nat, (sam c pc (ppgMask c n)).testBit k = false

/-- R93: the syndrome is linear, and flipping position `k` changes it by `XOR k`. -/
def Obligations.SyndromeIsLinear : Prop :=
  ∀ (c : Config) (n : Nat) (a1 a2 : Nat), 1 ≤ n → n ≤ c.nmax →
    (responseOf c (.synd n (a1 ^^^ a2))).syn =
      (responseOf c (.synd n a1)).syn ^^^ (responseOf c (.synd n a2)).syn ∧
    ∀ k, 1 ≤ k → k ≤ n →
      (responseOf c (.synd n (a1 ^^^ 2 ^ (k - 1)))).syn = (responseOf c (.synd n a1)).syn ^^^ k

/-- R92: a valid codeword has syndrome 0, and one flip at position `k` gives exactly `k`. -/
def Obligations.SingleErrorSyndromeIsItsPosition : Prop :=
  ∀ (c : Config) (n : Nat) (v : Nat), validCodeword c n v →
    (responseOf c (.synd n v)).syn = 0 ∧
    ∀ k, 1 ≤ k → k ≤ n → (responseOf c (.synd n (v ^^^ 2 ^ (k - 1)))).syn = k

/-- R94: the source's inconsistent example is reproduced, not fixed. -/
def Obligations.SourceDiscrepancyIsKept : Prop :=
  vectorOfChars "11110000".toList = some 0x0F ∧ vectorOfChars "10110000".toList = some 0x0D ∧
  ∀ s : State, 8 ≤ s.cfg.nmax →
    exec (.synd 8 0x0D) s = .next (s.showing 0 4 0b1111 6 0 0) ∧
    exec (.synd 8 0x0F) s = .next (s.showing 0 4 0b1111 4 0 0)

/-! ### CORR -/

/-- R98 and R99: a zero syndrome returns the codeword, a syndrome in `1..n` flips the bit it points
at, and every other bit below `n` stays. Bits at `n` and above are 0 (R45). -/
def Obligations.CorrAnswersFlippedCodeword : Prop :=
  ∀ (s : State) (na : Nat) (a : Nat), 1 ≤ na → na ≤ s.cfg.nmax →
    exec (.corr na 0 a) s = .next (s.showing 0 0 0 0 (a % 2 ^ na) 0) ∧
    ∀ sy, 1 ≤ sy → sy ≤ na →
      ∃ cw, exec (.corr na sy a) s = .next (s.showing 0 0 0 0 cw 0) ∧
        cw.testBit (sy - 1) = (!a.testBit (sy - 1)) ∧
        (∀ j, j < na → j ≠ sy - 1 → cw.testBit j = a.testBit j) ∧
        ∀ j, na ≤ j → cw.testBit j = false

/-- R100: a syndrome above the length is `OUT_OF_RANGE`, and no bit is flipped. -/
def Obligations.CorrRefusesSyndromeAboveLength : Prop :=
  ∀ (s : State) (na sy : Nat) (a : Nat), 1 ≤ na → na ≤ s.cfg.nmax → na < sy →
    exec (.corr na sy a) s = .next (s.showing 3 0 0 0 0 0)

/-- R102: CORR is its own inverse. -/
def Obligations.CorrTwiceRestoresTheCodeword : Prop :=
  ∀ (c : Config) (n sy : Nat) (a : Nat), 1 ≤ n → n ≤ c.nmax → sy ≤ n →
    responseOf c (.corr n sy (responseOf c (.corr n sy a)).cw) = ⟨0, 0, 0, 0, a % 2 ^ n, 0⟩

/-- Any syndrome in `0..n` is applied and changes at most one position, and after two errors
at `p` and `q` the syndrome is `p XOR q` (42_correction.md R97, R103). -/
def Obligations.CorrectionChangesAtMostOnePosition : Prop :=
  ∀ (c : Config) (n : Nat) (a : Nat), 1 ≤ n → n ≤ c.nmax →
    (∀ sy, sy ≤ n → (responseOf c (.corr n sy a)).err = 0 ∧
      ∀ i j, i < n → j < n → (responseOf c (.corr n sy a)).cw.testBit i ≠ a.testBit i →
        (responseOf c (.corr n sy a)).cw.testBit j ≠ a.testBit j → i = j) ∧
    (validCodeword c n a → ∀ p q, 1 ≤ p → p ≤ n → 1 ≤ q → q ≤ n →
      (responseOf c (.synd n (a ^^^ 2 ^ (p - 1) ^^^ 2 ^ (q - 1)))).syn = p ^^^ q)

/-- One injected error in a valid codeword is found by SYND, undone by CORR (R101), and so undone
by the macro DECODE (R71), with its codeword in either form. That the macro runs at the
command level of R138 is the model's choice: log entry 15. So is that DECODE keeps its written
length where the string has another one: log entry 10. -/
def Obligations.DecodeMacroRecoversTheCodeword : Prop :=
  ∀ (s : State) (n k : Nat) (v : Nat), s.busy = false → validCodeword s.cfg n v →
    v < 2 ^ s.cfg.nmax → 1 ≤ k → k ≤ n →
    (responseOf s.cfg (.synd n (v ^^^ 2 ^ (k - 1)))).syn = k ∧
    (responseOf s.cfg (.corr n k (v ^^^ 2 ^ (k - 1)))).cw = v % 2 ^ n ∧
    ∀ cw, assembleCw s.cfg cw = .ok (v ^^^ 2 ^ (k - 1)) →
      ∃ t, macroDecode n cw s = .ok (.next t) ∧ t.rspErr = 0 ∧ t.rspCw = v % 2 ^ n

/-- The host's test of CHECK passes exactly on valid codewords; DECODE stops with the error
of its SYND (30_encoding.md R71, 41_syndrome.md R91). That the macros run at the command level of
R138, and what the state shows in which DECODE stops, is the model's choice: log entry 15. So is that
both keep their written length where the string has another one: log entry 10. -/
def Obligations.CheckMacroPassesIffValid : Prop :=
  ∀ (s : State) (n : Nat) (cw : CwOperand) (a : Nat), s.busy = false → n < 2 ^ s.cfg.k →
    assembleCw s.cfg cw = .ok a → a < 2 ^ s.cfg.nmax →
    (∃ t b, macroCheck n cw s = .ok (.next (t, b)) ∧ (b = true ↔ validCodeword s.cfg n a)) ∧
    (¬ (1 ≤ n ∧ n ≤ s.cfg.nmax) →
      ∃ t, macroDecode n cw s = .ok (.next t) ∧ t.response = responseOf s.cfg (.synd n a) ∧
        t.rspErr ≠ 0)

/-! ### DIFF -/

/-- R105: DIFF of two codewords of one accepted length answers the mask of the positions where they
differ. -/
def Obligations.DiffAnswersDifferenceMask : Prop :=
  ∀ (s : State) (n : Nat) (a b : Nat), 1 ≤ n → n ≤ s.cfg.nmax →
    exec (.diff n n a b) s = .next (s.showing 0 0 0 0 0 ((a ^^^ b) % 2 ^ n)) ∧
    ∀ j, ((a ^^^ b) % 2 ^ n).testBit j = true ↔ j + 1 ≤ n ∧ a.testBit j ≠ b.testBit j

/-- R106: unequal lengths are `LENGTH_MISMATCH`. -/
def Obligations.DiffRefusesUnequalLengths : Prop :=
  ∀ (s : State) (na nb : Nat) (a b : Nat), 1 ≤ na → na ≤ s.cfg.nmax → 1 ≤ nb → nb ≤ s.cfg.nmax →
    na ≠ nb → exec (.diff na nb a b) s = .next (s.showing 2 0 0 0 0 0)

/-- R107 and R108: the sequence read from a DIFF response is the ordered sequence of positions
where the codewords differ, strictly ascending, and empty exactly when they are identical. -/
def Obligations.DiffSequenceReadOut : Prop :=
  ∀ (c : Config) (n : Nat) (a b : Nat), 1 ≤ n → n ≤ c.nmax →
    (∀ p, p ∈ diffSequence c (responseOf c (.diff n n a b)) ↔
      1 ≤ p ∧ p ≤ n ∧ a.testBit (p - 1) ≠ b.testBit (p - 1)) ∧
    (diffSequence c (responseOf c (.diff n n a b))).Pairwise (· < ·) ∧
    (diffSequence c (responseOf c (.diff n n a b)) = [] ↔ a % 2 ^ n = b % 2 ^ n)

/-- DIFF is symmetric, errors included (43_diff.md R104). -/
def Obligations.DiffIsSymmetric : Prop :=
  ∀ (c : Config) (na nb : Nat) (a b : Nat),
    responseOf c (.diff na nb a b) = responseOf c (.diff nb na b a)

/-! ### Errors -/

/-- R113: a word with `OP` in 4 to 7 completes with `ILLEGAL_OP`, whatever its other fields hold. -/
def Obligations.ReservedOpcodeAnswersIllegalOp : Prop :=
  ∀ s : State,
    (∀ w : Nat, 4 ≤ w % 8 → exec (decode s.cfg w) s = .next (s.showing 5 0 0 0 0 0)) ∧
    ∀ (op : Nat) (rest : Nat), exec (.reserved op rest) s = .next (s.showing 5 0 0 0 0 0)

/-- R112 and R114: each code is reported exactly when its cause holds and no check before it
fails. -/
def Obligations.ErrorCodeIffItsCause : Prop :=
  ∀ (c : Config) (i : Instr), (∀ op rest, i = .reserved op rest → 4 ≤ op) →
    let tooLong := c.nmax < lenA i ∨ opOf i = 3 ∧ c.nmax < lenB i
    let noLength := lenA i = 0 ∨ opOf i = 3 ∧ lenB i = 0
    ((responseOf c i).err = 5 ↔ 4 ≤ opOf i) ∧
    ((responseOf c i).err = 4 ↔ opOf i < 4 ∧ tooLong) ∧
    ((responseOf c i).err = 1 ↔ opOf i < 4 ∧ ¬ tooLong ∧ noLength) ∧
    ((responseOf c i).err = 2 ↔ opOf i = 3 ∧ ¬ tooLong ∧ ¬ noLength ∧ lenA i ≠ lenB i) ∧
    ((responseOf c i).err = 3 ↔ opOf i = 2 ∧ ¬ tooLong ∧ ¬ noLength ∧ lenA i < synOperand i) ∧
    ((responseOf c i).err = 0 ↔ opOf i < 4 ∧ ¬ tooLong ∧ ¬ noLength ∧
      ¬ (opOf i = 3 ∧ lenA i ≠ lenB i) ∧ ¬ (opOf i = 2 ∧ lenA i < synOperand i))

/-- R115: an error response holds the code and no partial result, and is valid. -/
def Obligations.ErrorResponseCarriesOnlyItsCode : Prop :=
  ∀ (i : Instr) (s : State), (responseOf s.cfg i).err ≠ 0 →
    exec i s = .next (s.showing (responseOf s.cfg i).err 0 0 0 0 0)

/-- R116: a length above `NMAX` gets `CAPACITY`; when `NMAX = 2^K - 1` no encodable length does. -/
def Obligations.CapacityIsALengthAboveNmax : Prop :=
  ∀ (s : State) (na nb sy : Nat) (a b : Nat),
    (s.cfg.nmax < na →
      exec (.ppos na) s = .next (s.showing 4 0 0 0 0 0) ∧
      exec (.synd na a) s = .next (s.showing 4 0 0 0 0 0) ∧
      exec (.corr na sy a) s = .next (s.showing 4 0 0 0 0 0) ∧
      exec (.diff na nb a b) s = .next (s.showing 4 0 0 0 0 0)) ∧
    (s.cfg.nmax < nb → exec (.diff na nb a b) s = .next (s.showing 4 0 0 0 0 0)) ∧
    (s.cfg.nmax = 2 ^ s.cfg.k - 1 →
      ∀ i : Instr, i.wellFormed s.cfg = true → (responseOf s.cfg i).err ≠ 4)

/-- R117: a zero length is `INVALID_INPUT` on every command, and for DIFF in either length (unless
the other length gives `CAPACITY`, R114); a character that is no binary digit is reported by the
host, which issues no command. -/
def Obligations.ZeroLengthIsInvalidInput : Prop :=
  ∀ (s : State) (n sy : Nat) (a b : Nat), n ≤ s.cfg.nmax →
    exec (.ppos 0) s = .next (s.showing 1 0 0 0 0 0) ∧
    exec (.synd 0 a) s = .next (s.showing 1 0 0 0 0 0) ∧
    exec (.corr 0 sy a) s = .next (s.showing 1 0 0 0 0 0) ∧
    exec (.diff 0 n a b) s = .next (s.showing 1 0 0 0 0 0) ∧
    exec (.diff n 0 a b) s = .next (s.showing 1 0 0 0 0 0) ∧
    ∀ cs : List Char, (∃ ch ∈ cs, ch ≠ '0' ∧ ch ≠ '1') →
      hostConvert s.cfg cs = .error .invalidInput

/-! ### Every response -/

/-- R45: in every response, `RSP_CW` and `RSP_DIFF` are 0 at and above the length, `RSP_PMASK` and
`RSP_SYN` at and above the count. -/
def Obligations.OutputBitsAboveLengthAreZero : Prop :=
  ∀ (c : Config) (i : Instr),
    (∀ j, lenA i ≤ j → (responseOf c i).cw.testBit j = false ∧
      (responseOf c i).diff.testBit j = false) ∧
    ∀ k, (responseOf c i).pcnt ≤ k → (responseOf c i).pmask.testBit k = false ∧
      (responseOf c i).syn.testBit k = false

/-- Every command completes in every state, and a completion writes the six response registers and
`RSP_VALID` and nothing else (10_state.md R36, R37, R38). -/
def Obligations.EveryCommandCompletesAndKeepsTheRest : Prop :=
  ∀ (i : Instr) (s : State), ∃ t, exec i s = .next t ∧ t.rspValid = true ∧
    t.response = responseOf s.cfg i ∧ t.latch = s.latch ∧ t.busy = s.busy ∧ t.cnt = s.cnt ∧
    t.cfg = s.cfg ∧ t.edges = s.edges

/-- R17: the response depends on the command word, `NMAX` and `K` only: two blocks with the same `NMAX`,
in any states and with any `LAT`, give one word the same response. -/
def Obligations.ResponseIgnoresHistoryAndLatency : Prop :=
  ∀ (w : Nat) (s t : State), s.cfg.nmax = t.cfg.nmax →
    ∃ (err : ErrBits) (pcnt : Nat) (pmask syn cw diff : Nat),
      exec (decode s.cfg w) s = .next (s.showing err pcnt pmask syn cw diff) ∧
      exec (decode t.cfg w) t = .next (t.showing err pcnt pmask syn cw diff)

/-! ### The clock edge -/

/-- R34: `cmd_ready` is `(NOT BUSY) AND (NOT rst)`; with `LAT = 0` it is 1 whenever `rst = 0`. -/
def Obligations.ReadyUnlessBusyOrReset : Prop :=
  ∀ (s : State) (rst : Bool),
    (s.cmdReady rst = true ↔ s.busy = false ∧ rst = false) ∧
    (s.Inv → s.cfg.lat = 0 → s.cmdReady false = true)

/-- An accepting edge runs the decoded command at once when `LAT = 0`, and otherwise puts it in
flight with the response registers unchanged: a step runs the command the port presents (R35). A
command presented while `cmd_ready = 0` is not accepted; that the edge then does as if nothing were
presented is the model's choice: log entry 13. -/
def Obligations.StepAcceptsThePresentedCommand : Prop :=
  ∀ s : State, s.edgeIn.rst = false → s.edgeIn.cmdValid = true →
    (s.cmdReady false = true → s.cfg.lat = 0 → step s = exec (decode s.cfg (s.edgeIn.cmdWord % 2 ^ s.cfg.cwW))
      { s with latch := s.edgeIn.cmdWord % 2 ^ s.cfg.cwW, edges := s.edges.tail }) ∧
    (s.cmdReady false = true → s.cfg.lat ≠ 0 → step s = .next
      { s with latch := s.edgeIn.cmdWord % 2 ^ s.cfg.cwW, busy := true, cnt := s.cfg.lat - 1,
               rspValid := false, edges := s.edges.tail }) ∧
    (s.cmdReady false = false →
      step s = step { s with edges := ⟨false, false, 0⟩ :: s.edges.tail })

/-- An edge with a command in flight completes the command in `LATCH` when `CNT` is 0, and counts
down otherwise: a step runs the command that was latched (R36). That the edge does so whatever the
host presents is the model's choice: log entry 13. -/
def Obligations.StepCompletesTheLatchedCommand : Prop :=
  ∀ s : State, s.edgeIn.rst = false → s.busy = true →
    (s.cnt = 0 → step s = exec (decode s.cfg s.latch)
      { s with busy := false, edges := s.edges.tail }) ∧
    (s.cnt ≠ 0 → step s = .next { s with cnt := s.cnt - 1, edges := s.edges.tail })

/-- The step after `withFetchWord` runs exactly the command of that word (log entry 3). -/
def Obligations.FetchWordRunsAtTheNextStep : Prop :=
  ∀ (s : State) (nbits w : Nat),
    step (s.withFetchWord nbits w) = exec (decode s.cfg (w % 2 ^ nbits))
      { s with busy := false, latch := w % 2 ^ nbits % 2 ^ s.cfg.cwW,
               cnt := if s.cfg.lat = 0 then s.cnt else 0 }

/-- R127 and R128: at an edge with `rst = 1` every register takes its reset value, whatever else the
edge could have done; so also R39's values. -/
def Obligations.ResetEdgeGivesResetState : Prop :=
  ∀ s : State, s.edgeIn.rst = true → s.cmdReady true = false ∧
    step s = .next
      { rspValid := false, rspErr := 0, rspPcnt := 0, rspPmask := 0, rspSyn := 0, rspCw := 0,
        rspDiff := 0, latch := 0, busy := false, cnt := 0, cfg := s.cfg, edges := s.edges.tail }

/-- R129: after a reset edge the block is ready, shows no response, and `rsp_word` reads 0; the first
edge with `rst = 0` can accept a command. -/
def Obligations.FirstCommandAfterReset : Prop :=
  ∀ (s : State) (e f : EdgeIn) (rest : List EdgeIn), s.edges = e :: f :: rest → e.rst = true →
    f.rst = false → f.cmdValid = true →
    ∃ t, step s = .next t ∧ t.cmdReady false = true ∧ t.rspValid = false ∧ t.rspWord = 0 ∧
      ∃ u, step t = .next u ∧ u.latch = f.cmdWord % 2 ^ s.cfg.cwW ∧
        (s.cfg.lat = 0 → u.response = execFn s.cfg f.cmdWord ∧ u.rspValid = true) ∧
        (s.cfg.lat ≠ 0 → u.busy = true)

/-- R37: an edge that is no reset, accepting or completion edge keeps every register. -/
def Obligations.QuietEdgeHoldsEveryRegister : Prop :=
  ∀ s : State, s.edgeIn.rst = false → s.edgeIn.cmdValid = false → s.busy = false →
    step s = .next { s with edges := s.edges.tail }

/-- While a command is in flight nothing is accepted or queued, and `LATCH` keeps its word (R136).
That the edge does the same whatever the host presents is the model's choice: log entry 13. -/
def Obligations.BusyEdgeIgnoresTheCommandPort : Prop :=
  ∀ (s : State) (rest : List EdgeIn) (valid valid' : Bool) (w w' : Nat), s.busy = true →
    s.cmdReady false = false ∧
    step { s with edges := ⟨false, valid, w⟩ :: rest } =
      step { s with edges := ⟨false, valid', w'⟩ :: rest } ∧
    ∃ t, step { s with edges := ⟨false, valid, w⟩ :: rest } = .next t ∧ t.latch = s.latch

/-! ### Runs -/

/-- A command accepted at edge `e` completes at edge `e + LAT` (R139). Until then the block is busy and
not ready, `RSP_VALID` is 0 and the response registers keep their old values; after it the block is
ready again. That the host may present anything in flight is the model's choice: log entry 13. -/
def Obligations.CommandCompletesAfterLatEdges : Prop :=
  ∀ (s : State) (w : Nat) (flight rest : List EdgeIn), s.busy = false →
    s.edges = ⟨false, true, w⟩ :: (flight ++ rest) → flight.length = s.cfg.lat →
    (∀ e ∈ flight, e.rst = false) →
    (∀ m, m < s.cfg.lat → ∃ t, run (m + 1) s = .next t ∧ t.busy = true ∧
      t.cmdReady false = false ∧ t.rspValid = false ∧ t.response = s.response) ∧
    ∃ t, run (s.cfg.lat + 1) s = .next t ∧ t.response = execFn s.cfg w ∧ t.rspValid = true ∧
      t.busy = false ∧ t.cmdReady false = true ∧ t.edges = rest

/-- Every clock edge is one of the events Reset, Issue, Tick and Idle, enabled in its state; an
Issue while busy has no step; and the command-level step, which collapses an Issue and its Ticks,
is exact (R138). The model's choices: the fault of an event that is not enabled (log entry 9), the
event of an edge at which a command waits for one in flight (log entry 13), and `CNT` after the
command-level step (log entry 15). -/
def Obligations.TransactionStepIsExact : Prop :=
  (∀ s : State, step s = (eventAt s.edgeIn s).apply s.popEdge ∧ ∃ t, step s = .next t) ∧
  (∀ (s : State) (w : Nat), s.busy = true → (Event.issue w).apply s = .fault .issueWhileBusy) ∧
  ∀ (s : State) (w : Nat) (flight rest : List EdgeIn), s.Inv → s.busy = false →
    s.edges = ⟨false, true, w⟩ :: (flight ++ rest) → w < 2 ^ s.cfg.cwW →
    flight.length = s.cfg.lat → (∀ e ∈ flight, e.rst = false) →
    run (s.cfg.lat + 1) s = commandStep w { s with edges := rest }

/-- A command with a reset edge before or at its completion edge produces no response, then or
later (R130): at no edge up to the reset edge is a result of it seen, and the reset edge and the
quiet edges after it leave the reset state. That the host may present anything in flight is the
model's choice: log entry 13. -/
def Obligations.ResetLosesTheCommandInFlight : Prop :=
  ∀ (s : State) (w : Nat) (flight quiet rest : List EdgeIn) (e : EdgeIn), s.busy = false →
    s.edges = ⟨false, true, w⟩ :: (flight ++ e :: (quiet ++ rest)) →
    flight.length < s.cfg.lat → (∀ f ∈ flight, f.rst = false) → e.rst = true →
    (∀ f ∈ quiet, f.rst = false ∧ f.cmdValid = false) →
    (∀ m, m ≤ flight.length →
      ∃ t, run (m + 1) s = .next t ∧ t.rspValid = false ∧ t.response = s.response) ∧
    ∀ m, m ≤ quiet.length →
      run (flight.length + 2 + m) s = .next (State.resetOf s.cfg (quiet.drop m ++ rest))

/-- Responses appear in the order their commands were accepted, one for each, whatever the block
answered before (20_memory.md R49). That the host may present anything in flight is the model's
choice: log entry 13. -/
def Obligations.ResponsesComeInIssueOrder : Prop :=
  ∀ (s : State) (stream : List (Nat × List EdgeIn)) (rest : List EdgeIn), s.busy = false →
    s.edges = hostStream stream ++ rest →
    (∀ p ∈ stream, p.2.length = s.cfg.lat ∧ ∀ e ∈ p.2, e.rst = false) →
    ∀ m p, stream[m]? = some p →
      ∃ t, run ((m + 1) * (s.cfg.lat + 1)) s = .next t ∧ t.rspValid = true ∧ t.busy = false ∧
        t.response = execFn s.cfg p.1

/-- R134: a response stays in the response registers until the next completion edge or reset edge;
with `LAT = 0` the next completion edge is the next accepting edge. -/
def Obligations.ResponseStaysUntilNextCompletion : Prop :=
  ∀ s t : State, step s = .next t → s.edgeIn.rst = false → ¬ (s.busy = true ∧ s.cnt = 0) →
    ¬ (s.busy = false ∧ s.edgeIn.cmdValid = true ∧ s.cfg.lat = 0) → t.response = s.response

/-- R135: a host read has no result while `RSP_VALID = 0`, and otherwise gives the response
registers. -/
def Obligations.HostReadNeedsValid : Prop :=
  ∀ s : State, (s.rspValid = false → s.hostRead = .refused .noResult) ∧
    (s.Inv → s.rspValid = true → s.hostRead = .next s.response)

/-- The block never stops: every edge of every state gives a next state, which keeps the parameters
and takes the host's next inputs (60_exceptions.md R111). -/
def Obligations.StepNeverStops : Prop :=
  ∀ s : State, ∃ t, step s = .next t ∧ t.cfg = s.cfg ∧ t.edges = s.edges.tail

/-- R141: once the host stops, the run ends: the command in flight completes within `LAT` edges. -/
def Obligations.RunEndsOnceTheHostStops : Prop :=
  ∀ s : State, s.Inv → s.edges = [] → ∃ m t, m ≤ s.cfg.lat ∧ run m s = .next t ∧ t.ended

/-! ### The invariant -/

/-- The reset state of every configuration meets the invariant (10_state.md R39). -/
def Obligations.ResetStateMeetsInv : Prop :=
  State.reset.Inv ∧ ∀ (c : Config) (edges : List EdgeIn), (State.resetOf c edges).Inv

/-- Every step keeps the invariant: legal response registers, register widths, and the handshake
registers as R24 to R33 say. -/
def Obligations.StepKeepsInv : Prop :=
  ∀ s t : State, s.Inv → step s = .next t → t.Inv

/-! ### The host's side -/

/-- A string converts with its first character at position 1, bit 0; an empty string and any
other character are `InvalidInput`, and a length that `NA` cannot encode is `CAPACITY` (R42). Where
a string longer than `NMAX` puts its bits is the model's choice: log entry 17. -/
def Obligations.StringConvertsPositionOneFirst : Prop :=
  ∀ (c : Config) (cs : List Char),
    (cs = [] → hostConvert c cs = .error .invalidInput) ∧
    ((∃ ch ∈ cs, ch ≠ '0' ∧ ch ≠ '1') → hostConvert c cs = .error .invalidInput) ∧
    (cs ≠ [] → (∀ ch ∈ cs, ch = '0' ∨ ch = '1') →
      (2 ^ c.k - 1 < cs.length → hostConvert c cs = .error .capacity) ∧
      (cs.length ≤ 2 ^ c.k - 1 →
        ∃ a, hostConvert c cs = .ok (cs.length, a) ∧
          ∀ j, a.testBit j = (cs[j]? == some '1'))) ∧
    vectorOfChars "10110000".toList = some 0x0D

/-- The line a command word prints as assembles to a word with the same response (30_encoding.md
R70), and it is the line of R72: strings of exactly `NA` or `NB` characters where those lengths are in
`1..NMAX`, the long form with vector literals otherwise, and `.cmd` exactly for the reserved
opcodes. The operand forms of a DIFF with one length in range are the model's choice (log entry 11),
and so is that a long form keeps its written length (log entry 10). -/
def Obligations.DisassemblyReassembles : Prop :=
  ∀ (c : Config) (w : Nat), w < 2 ^ c.cwW →
    (∃ w', assemble c (disassemble c w) = .ok w' ∧ execFn c w' = execFn c w) ∧
    (∀ n, decode c w = .ppos n → disassemble c w = .ppos n) ∧
    (∀ n a, decode c w = .synd n a →
      (1 ≤ n ∧ n ≤ c.nmax → ∃ cs, Spells cs n a ∧ disassemble c w = .syndStr cs) ∧
      (¬ (1 ≤ n ∧ n ≤ c.nmax) → disassemble c w = .synd n (.vec a))) ∧
    (∀ n s a, decode c w = .corr n s a →
      (1 ≤ n ∧ n ≤ c.nmax → ∃ cs, Spells cs n a ∧ disassemble c w = .corrStr s cs) ∧
      (¬ (1 ≤ n ∧ n ≤ c.nmax) → disassemble c w = .corr n s (.vec a))) ∧
    (∀ na nb a b, decode c w = .diff na nb a b →
      (1 ≤ na ∧ na ≤ c.nmax → 1 ≤ nb ∧ nb ≤ c.nmax →
        ∃ ca cb, Spells ca na a ∧ Spells cb nb b ∧ disassemble c w = .diffStr ca cb) ∧
      (1 ≤ na ∧ na ≤ c.nmax → ¬ (1 ≤ nb ∧ nb ≤ c.nmax) →
        ∃ ca, Spells ca na a ∧ disassemble c w = .diff na nb (.str ca) (.vec b)) ∧
      (¬ (1 ≤ na ∧ na ≤ c.nmax) → 1 ≤ nb ∧ nb ≤ c.nmax →
        ∃ cb, Spells cb nb b ∧ disassemble c w = .diff na nb (.vec a) (.str cb)) ∧
      (¬ (1 ≤ na ∧ na ≤ c.nmax) → ¬ (1 ≤ nb ∧ nb ≤ c.nmax) →
        disassemble c w = .diff na nb (.vec a) (.vec b))) ∧
    (disassemble c w = .raw w ↔ 4 ≤ w % 8)

/-- A macro refuses what the assembler refuses, and issues nothing then: a bad codeword, and an operand
that does not fit, which is never truncated (30_encoding.md R69, R70, R71). Once its operands are
taken, both macros run to a next state: the CORR of DECODE is never refused. The model's choices:
that an empty string is refused, that a bad string is reported before a length that does not fit,
and that a written length is kept where the string has another one (log entry 10), and the command
level of R138 (log entry 15). -/
def Obligations.MacrosRefuseWhatTheAssemblerRefuses : Prop :=
  ∀ (s : State) (n : Nat) (cw : CwOperand),
    (∀ e, assembleCw s.cfg cw = .error e →
      macroCheck n cw s = .error e ∧ macroDecode n cw s = .error e) ∧
    (∀ a, assembleCw s.cfg cw = .ok a → 2 ^ s.cfg.k ≤ n ∨ 2 ^ s.cfg.nmax ≤ a →
      macroCheck n cw s = .error .operandTooWide ∧ macroDecode n cw s = .error .operandTooWide) ∧
    (∀ a, assembleCw s.cfg cw = .ok a → n < 2 ^ s.cfg.k → a < 2 ^ s.cfg.nmax → s.busy = false →
      (∃ t b, macroCheck n cw s = .ok (.next (t, b))) ∧ ∃ t, macroDecode n cw s = .ok (.next t)) ∧
    ∀ cs : List Char,
      (cs = [] ∨ (∃ ch ∈ cs, ch ≠ '0' ∧ ch ≠ '1') →
        assembleCw s.cfg (.str cs) = .error .invalidInput) ∧
      ((∀ ch ∈ cs, ch = '0' ∨ ch = '1') → s.cfg.nmax < cs.length →
        assembleCw s.cfg (.str cs) = .error .stringTooLong)
end

