-- ==== Sys2Proof/Laws/Bits.lean ====
section
/-! SUPPORT. What the bit-level helpers do: one lemma per helper, so that no proof unfolds them. -/

namespace Sys2Proof

/-! ### `bitField` -/

@[simp] theorem testBit_bitField (w : Nat) (lo width i : Nat) :
    (bitField w lo width).testBit i = (decide (i < width) && w.testBit (lo + i)) := by
  simp [bitField, Nat.testBit_mod_two_pow, Nat.testBit_shiftRight]

theorem bitField_lt (w : Nat) (lo width : Nat) : bitField w lo width < 2 ^ width :=
  Nat.mod_lt _ (Nat.two_pow_pos _)

theorem bitField_zero_eq_mod (w : Nat) (width : Nat) : bitField w 0 width = w % 2 ^ width := by
  simp [bitField]

theorem bitField_zero_of_lt {w : Nat} {width : Nat} (h : w < 2 ^ width) : bitField w 0 width = w := by
  rw [bitField_zero_eq_mod, Nat.mod_eq_of_lt h]

/-- A field of the low part of a word is a field of the word. -/
theorem bitField_bitField_zero (w : Nat) (lo width n : Nat) (h : lo + width ≤ n) :
    bitField (bitField w 0 n) lo width = bitField w lo width := by
  apply Nat.eq_of_testBit_eq
  intro i
  simp only [testBit_bitField, Nat.zero_add]
  by_cases hi : i < width
  · simp [hi, show lo + i < n by omega]
  · simp [hi]

/-! ### `vecOf` -/

@[simp] theorem testBit_vecOf (width : Nat) (f : Nat → Bool) (i : Nat) :
    (vecOf width f).testBit i = (decide (i < width) && f i) := by
  induction width with
  | zero => simp [vecOf]
  | succ n ih =>
    rw [vecOf, Nat.testBit_or, ih, Nat.testBit_shiftLeft]
    obtain h | rfl | h := Nat.lt_trichotomy i n
    · simp [h, show ¬ i ≥ n by omega, show i < n + 1 by omega]
    · cases f i <;> simp
    · simp only [show ¬ i < n by omega, show ¬ i < n + 1 by omega, decide_false, Bool.false_and,
        Bool.false_or, ge_iff_le, show n ≤ i by omega, decide_true, Bool.true_and]
      obtain ⟨d, hd⟩ : ∃ d, i - n = d + 1 := ⟨i - n - 1, by omega⟩
      cases f n <;> simp [hd, Nat.testBit_succ]

theorem vecOf_lt (width : Nat) (f : Nat → Bool) : vecOf width f < 2 ^ width := by
  apply Nat.lt_pow_two_of_testBit
  intro i hi
  simp [show ¬ i < width by omega]

/-! ### `bitlen` -/

@[simp] theorem bitlen_zero : bitlen 0 = 0 := rfl

/-- `bitlen(n)` is "the least `m` with `n < 2^m`" (R14). -/
theorem bitlen_le_iff {n m : Nat} : bitlen n ≤ m ↔ n < 2 ^ m := by
  unfold bitlen
  split
  · simp_all
  · rename_i h
    rw [← Nat.log2_lt h]
    omega

theorem lt_bitlen_iff {n k : Nat} : k < bitlen n ↔ 2 ^ k ≤ n := by
  have := @bitlen_le_iff n k
  omega

theorem lt_two_pow_bitlen (n : Nat) : n < 2 ^ bitlen n := bitlen_le_iff.mp (Nat.le_refl _)

theorem bitlen_pos {n : Nat} (h : 1 ≤ n) : 1 ≤ bitlen n := lt_bitlen_iff.mpr (by simpa using h)

theorem bitlen_mono {m n : Nat} (h : m ≤ n) : bitlen m ≤ bitlen n :=
  bitlen_le_iff.mpr (Nat.lt_of_le_of_lt h (lt_two_pow_bitlen n))

/-- No bit of `n` lies at or above `bitlen(n)`. -/
theorem testBit_eq_false_of_bitlen_le {n k : Nat} (h : bitlen n ≤ k) : n.testBit k = false :=
  Nat.testBit_lt_two_pow (bitlen_le_iff.mp h)

/-- An accepted length fits the length field (R6). -/
theorem Config.lt_two_pow_k (c : Config) {n : Nat} (h : n ≤ c.nmax) : n < 2 ^ c.k :=
  Nat.lt_of_le_of_lt h (lt_two_pow_bitlen _)

theorem Config.bitlen_le_k (c : Config) {n : Nat} (h : n ≤ c.nmax) : bitlen n ≤ c.k := bitlen_mono h

/-! ### `xorOver` -/

theorem xorOver_congr {n : Nat} {f g : Nat → Bool} (h : ∀ j, j < n → f j = g j) :
    xorOver n f = xorOver n g := by
  induction n with
  | zero => rfl
  | succ n ih => rw [xorOver, xorOver, ih fun j hj => h j (by omega), h n (by omega)]

theorem xorOver_false (n : Nat) : (xorOver n fun _ => false) = false := by
  induction n with
  | zero => rfl
  | succ n ih => rw [xorOver, ih]; rfl

theorem xorOver_xor (n : Nat) (f g : Nat → Bool) :
    (xorOver n fun j => f j ^^ g j) = (xorOver n f ^^ xorOver n g) := by
  induction n with
  | zero => rfl
  | succ n ih => simp only [xorOver, ih]; cases xorOver n f <;> cases xorOver n g <;> simp

/-- Terms that are false from `n` on do not count. -/
theorem xorOver_extend {n m : Nat} (h : n ≤ m) {f : Nat → Bool} (hf : ∀ j, n ≤ j → f j = false) :
    xorOver m f = xorOver n f := by
  induction m with
  | zero => rw [show n = 0 by omega]
  | succ m ih =>
    by_cases hm : n = m + 1
    · rw [hm]
    · rw [xorOver, ih (by omega), hf m (by omega), Bool.xor_false]

end Sys2Proof
end

