-- ==== Sys2Proof/Laws/Datapath.lean ====
section
/-! SUPPORT. Each sub-block, bit by bit. -/

namespace Sys2Proof.Machine

@[simp] theorem testBit_pen (c : Config) (n j : Nat) :
    (pen c n).testBit j = (decide (j < c.nmax) && decide (j < n)) := by
  simp [pen]

@[simp] theorem testBit_maskTo (n : Nat) (a : Nat) (j : Nat) :
    (maskTo n a).testBit j = (decide (j < n) && a.testBit j) := by
  simp [maskTo]

/-- `PMASK[k] = 1` exactly when `2^k <= n`, for an `n` that fits its field (R75). -/
theorem testBit_ppgMask (c : Config) (n k : Nat) :
    (ppgMask c n).testBit k = (decide (k < c.k) && decide (2 ^ k ≤ n)) := by
  rw [ppgMask, testBit_vecOf]
  congr 1
  simp only [Nat.shiftRight_eq_div_pow, ne_eq, decide_eq_decide]
  rw [Nat.div_eq_zero_iff]
  have := Nat.two_pow_pos k
  omega

@[simp] theorem testBit_pca (c : Config) (a en : Nat) (k : Nat) :
    (pca c a en).testBit k = (decide (k < c.k) &&
      xorOver c.nmax fun j => a.testBit j && en.testBit j && (j + 1).testBit k) := by
  simp [pca]

@[simp] theorem testBit_sam (c : Config) (pc pmask : Nat) (k : Nat) :
    (sam c pc pmask).testBit k = (decide (k < c.k) && pmask.testBit k && pc.testBit k) := by
  simp only [sam, testBit_vecOf]
  cases pmask.testBit k <;> simp

@[simp] theorem testBit_flip (c : Config) (n s : Nat) (a : Nat) (j : Nat) :
    (flip c n s a).testBit j =
      (decide (j < c.nmax) && decide (j < n) && (a.testBit j ^^ decide (s = j + 1))) := by
  simp only [flip, testBit_vecOf, testBit_pen]
  cases decide (j < c.nmax) <;> simp

@[simp] theorem testBit_dcmp (c : Config) (n : Nat) (a b : Nat) (j : Nat) :
    (dcmp c n a b).testBit j =
      (decide (j < c.nmax) && decide (j < n) && (a.testBit j ^^ b.testBit j)) := by
  simp only [dcmp, testBit_vecOf, testBit_pen]
  cases decide (j < c.nmax) <;> simp

theorem ppgMask_lt (c : Config) (n : Nat) : ppgMask c n < 2 ^ c.k := vecOf_lt _ _

theorem flip_lt (c : Config) (n s : Nat) (a : Nat) : flip c n s a < 2 ^ c.nmax := vecOf_lt _ _

theorem dcmp_lt (c : Config) (n : Nat) (a b : Nat) : dcmp c n a b < 2 ^ c.nmax := vecOf_lt _ _

theorem syndrome_lt (c : Config) (n : Nat) (a : Nat) : syndrome c n a < 2 ^ c.k := vecOf_lt _ _

end Sys2Proof.Machine
end

