-- ==== Sys2Proof/Laws/State.lean ====
section
/-! SUPPORT. Every field after every update of the state, so that no proof unfolds an update. -/

namespace Sys2Proof.Machine

variable (s : State)

/-! ### `load` writes the response registers and `RSP_VALID` -/

@[simp] theorem State.load_rspValid (r : Response) : (s.load r).rspValid = true := rfl
@[simp] theorem State.load_rspErr (r : Response) : (s.load r).rspErr = r.err := rfl
@[simp] theorem State.load_rspPcnt (r : Response) : (s.load r).rspPcnt = r.pcnt := rfl
@[simp] theorem State.load_rspPmask (r : Response) : (s.load r).rspPmask = r.pmask := rfl
@[simp] theorem State.load_rspSyn (r : Response) : (s.load r).rspSyn = r.syn := rfl
@[simp] theorem State.load_rspCw (r : Response) : (s.load r).rspCw = r.cw := rfl
@[simp] theorem State.load_rspDiff (r : Response) : (s.load r).rspDiff = r.diff := rfl
@[simp] theorem State.load_latch (r : Response) : (s.load r).latch = s.latch := rfl
@[simp] theorem State.load_busy (r : Response) : (s.load r).busy = s.busy := rfl
@[simp] theorem State.load_cnt (r : Response) : (s.load r).cnt = s.cnt := rfl
@[simp] theorem State.load_cfg (r : Response) : (s.load r).cfg = s.cfg := rfl
@[simp] theorem State.load_edges (r : Response) : (s.load r).edges = s.edges := rfl

@[simp] theorem State.load_response (r : Response) : (s.load r).response = r := rfl

/-! ### `latchWord` writes `LATCH` -/

@[simp] theorem State.latchWord_rspValid (w : Nat) : (s.latchWord w).rspValid = s.rspValid := rfl
@[simp] theorem State.latchWord_rspErr (w : Nat) : (s.latchWord w).rspErr = s.rspErr := rfl
@[simp] theorem State.latchWord_rspPcnt (w : Nat) : (s.latchWord w).rspPcnt = s.rspPcnt := rfl
@[simp] theorem State.latchWord_rspPmask (w : Nat) : (s.latchWord w).rspPmask = s.rspPmask := rfl
@[simp] theorem State.latchWord_rspSyn (w : Nat) : (s.latchWord w).rspSyn = s.rspSyn := rfl
@[simp] theorem State.latchWord_rspCw (w : Nat) : (s.latchWord w).rspCw = s.rspCw := rfl
@[simp] theorem State.latchWord_rspDiff (w : Nat) : (s.latchWord w).rspDiff = s.rspDiff := rfl
@[simp] theorem State.latchWord_latch (w : Nat) : (s.latchWord w).latch = w := rfl
@[simp] theorem State.latchWord_busy (w : Nat) : (s.latchWord w).busy = s.busy := rfl
@[simp] theorem State.latchWord_cnt (w : Nat) : (s.latchWord w).cnt = s.cnt := rfl
@[simp] theorem State.latchWord_cfg (w : Nat) : (s.latchWord w).cfg = s.cfg := rfl
@[simp] theorem State.latchWord_edges (w : Nat) : (s.latchWord w).edges = s.edges := rfl

@[simp] theorem State.latchWord_response (w : Nat) : (s.latchWord w).response = s.response := rfl

/-! ### `startFlight` writes `BUSY`, `CNT` and `RSP_VALID` -/

@[simp] theorem State.startFlight_rspValid : (s.startFlight).rspValid = false := rfl
@[simp] theorem State.startFlight_rspErr : (s.startFlight).rspErr = s.rspErr := rfl
@[simp] theorem State.startFlight_rspPcnt : (s.startFlight).rspPcnt = s.rspPcnt := rfl
@[simp] theorem State.startFlight_rspPmask : (s.startFlight).rspPmask = s.rspPmask := rfl
@[simp] theorem State.startFlight_rspSyn : (s.startFlight).rspSyn = s.rspSyn := rfl
@[simp] theorem State.startFlight_rspCw : (s.startFlight).rspCw = s.rspCw := rfl
@[simp] theorem State.startFlight_rspDiff : (s.startFlight).rspDiff = s.rspDiff := rfl
@[simp] theorem State.startFlight_latch : (s.startFlight).latch = s.latch := rfl
@[simp] theorem State.startFlight_busy : (s.startFlight).busy = true := rfl
@[simp] theorem State.startFlight_cnt : (s.startFlight).cnt = s.cfg.lat - 1 := rfl
@[simp] theorem State.startFlight_cfg : (s.startFlight).cfg = s.cfg := rfl
@[simp] theorem State.startFlight_edges : (s.startFlight).edges = s.edges := rfl

@[simp] theorem State.startFlight_response : (s.startFlight).response = s.response := rfl

/-! ### `countDown` writes `CNT` -/

@[simp] theorem State.countDown_rspValid : (s.countDown).rspValid = s.rspValid := rfl
@[simp] theorem State.countDown_rspErr : (s.countDown).rspErr = s.rspErr := rfl
@[simp] theorem State.countDown_rspPcnt : (s.countDown).rspPcnt = s.rspPcnt := rfl
@[simp] theorem State.countDown_rspPmask : (s.countDown).rspPmask = s.rspPmask := rfl
@[simp] theorem State.countDown_rspSyn : (s.countDown).rspSyn = s.rspSyn := rfl
@[simp] theorem State.countDown_rspCw : (s.countDown).rspCw = s.rspCw := rfl
@[simp] theorem State.countDown_rspDiff : (s.countDown).rspDiff = s.rspDiff := rfl
@[simp] theorem State.countDown_latch : (s.countDown).latch = s.latch := rfl
@[simp] theorem State.countDown_busy : (s.countDown).busy = s.busy := rfl
@[simp] theorem State.countDown_cnt : (s.countDown).cnt = s.cnt - 1 := rfl
@[simp] theorem State.countDown_cfg : (s.countDown).cfg = s.cfg := rfl
@[simp] theorem State.countDown_edges : (s.countDown).edges = s.edges := rfl

@[simp] theorem State.countDown_response : (s.countDown).response = s.response := rfl

/-! ### `endFlight` writes `BUSY` -/

@[simp] theorem State.endFlight_rspValid : (s.endFlight).rspValid = s.rspValid := rfl
@[simp] theorem State.endFlight_rspErr : (s.endFlight).rspErr = s.rspErr := rfl
@[simp] theorem State.endFlight_rspPcnt : (s.endFlight).rspPcnt = s.rspPcnt := rfl
@[simp] theorem State.endFlight_rspPmask : (s.endFlight).rspPmask = s.rspPmask := rfl
@[simp] theorem State.endFlight_rspSyn : (s.endFlight).rspSyn = s.rspSyn := rfl
@[simp] theorem State.endFlight_rspCw : (s.endFlight).rspCw = s.rspCw := rfl
@[simp] theorem State.endFlight_rspDiff : (s.endFlight).rspDiff = s.rspDiff := rfl
@[simp] theorem State.endFlight_latch : (s.endFlight).latch = s.latch := rfl
@[simp] theorem State.endFlight_busy : (s.endFlight).busy = false := rfl
@[simp] theorem State.endFlight_cnt : (s.endFlight).cnt = s.cnt := rfl
@[simp] theorem State.endFlight_cfg : (s.endFlight).cfg = s.cfg := rfl
@[simp] theorem State.endFlight_edges : (s.endFlight).edges = s.edges := rfl

@[simp] theorem State.endFlight_response : (s.endFlight).response = s.response := rfl

/-! ### `popEdge` takes the next inputs -/

@[simp] theorem State.popEdge_rspValid : (s.popEdge).rspValid = s.rspValid := rfl
@[simp] theorem State.popEdge_rspErr : (s.popEdge).rspErr = s.rspErr := rfl
@[simp] theorem State.popEdge_rspPcnt : (s.popEdge).rspPcnt = s.rspPcnt := rfl
@[simp] theorem State.popEdge_rspPmask : (s.popEdge).rspPmask = s.rspPmask := rfl
@[simp] theorem State.popEdge_rspSyn : (s.popEdge).rspSyn = s.rspSyn := rfl
@[simp] theorem State.popEdge_rspCw : (s.popEdge).rspCw = s.rspCw := rfl
@[simp] theorem State.popEdge_rspDiff : (s.popEdge).rspDiff = s.rspDiff := rfl
@[simp] theorem State.popEdge_latch : (s.popEdge).latch = s.latch := rfl
@[simp] theorem State.popEdge_busy : (s.popEdge).busy = s.busy := rfl
@[simp] theorem State.popEdge_cnt : (s.popEdge).cnt = s.cnt := rfl
@[simp] theorem State.popEdge_cfg : (s.popEdge).cfg = s.cfg := rfl
@[simp] theorem State.popEdge_edges : (s.popEdge).edges = s.edges.tail := rfl

@[simp] theorem State.popEdge_response : (s.popEdge).response = s.response := rfl

/-! ### `resetEdge` writes every register -/

@[simp] theorem State.resetEdge_rspValid : (s.resetEdge).rspValid = false := rfl
@[simp] theorem State.resetEdge_rspErr : (s.resetEdge).rspErr = 0 := rfl
@[simp] theorem State.resetEdge_rspPcnt : (s.resetEdge).rspPcnt = 0 := rfl
@[simp] theorem State.resetEdge_rspPmask : (s.resetEdge).rspPmask = 0 := rfl
@[simp] theorem State.resetEdge_rspSyn : (s.resetEdge).rspSyn = 0 := rfl
@[simp] theorem State.resetEdge_rspCw : (s.resetEdge).rspCw = 0 := rfl
@[simp] theorem State.resetEdge_rspDiff : (s.resetEdge).rspDiff = 0 := rfl
@[simp] theorem State.resetEdge_latch : (s.resetEdge).latch = 0 := rfl
@[simp] theorem State.resetEdge_busy : (s.resetEdge).busy = false := rfl
@[simp] theorem State.resetEdge_cnt : (s.resetEdge).cnt = 0 := rfl
@[simp] theorem State.resetEdge_cfg : (s.resetEdge).cfg = s.cfg := rfl
@[simp] theorem State.resetEdge_edges : (s.resetEdge).edges = s.edges := rfl

@[simp] theorem State.resetEdge_response : s.resetEdge.response = ⟨0, 0, 0, 0, 0, 0⟩ := rfl

end Sys2Proof.Machine
end

