-- ==== Sys2Proof/Laws/Ops.lean ====
section
/-! SUPPORT. What the shared operations answer. -/

namespace Sys2Proof.Machine

/-! ### Checks (R114) -/

/-- Everything `precheck` can answer. -/
theorem precheck_cases (c : Config) (op na nb : Nat) :
    (4 ≤ op ∧ precheck c op na nb = some .illegalOp) ∨
    (op < 4 ∧ (c.nmax < na ∨ op = 3 ∧ c.nmax < nb) ∧ precheck c op na nb = some .capacity) ∨
    (op < 4 ∧ na ≤ c.nmax ∧ (op = 3 → nb ≤ c.nmax) ∧ (na = 0 ∨ op = 3 ∧ nb = 0) ∧
      precheck c op na nb = some .invalidInput) ∨
    (op < 4 ∧ 1 ≤ na ∧ na ≤ c.nmax ∧ (op = 3 → 1 ≤ nb ∧ nb ≤ c.nmax) ∧
      precheck c op na nb = none) := by
  unfold precheck
  split
  · exact .inl ⟨‹_›, rfl⟩
  · split
    · exact .inr (.inl ⟨by omega, ‹_›, rfl⟩)
    · split
      · exact .inr (.inr (.inl ⟨by omega, by omega, by omega, ‹_›, rfl⟩))
      · exact .inr (.inr (.inr ⟨by omega, by omega, by omega, by omega, rfl⟩))

@[simp] theorem respond_some (e : ErrCode) (o : Output) : respond (some e) o = raiseErr e := rfl

@[simp] theorem respond_none (o : Output) : respond none o = rmux o := rfl

@[simp] theorem firstError_some (e : ErrCode) (own : Option ErrCode) :
    firstError (some e) own = some e := rfl

@[simp] theorem firstError_none (own : Option ErrCode) : firstError none own = own := rfl

theorem lengthCheck_cases (na nb : Nat) :
    (na = nb ∧ lengthCheck na nb = none) ∨ (na ≠ nb ∧ lengthCheck na nb = some .lengthMismatch) := by
  unfold lengthCheck
  split
  · exact .inr ⟨‹_›, rfl⟩
  · exact .inl ⟨by omega, rfl⟩

theorem rangeCheck_cases (na s : Nat) :
    (s ≤ na ∧ rangeCheck na s = none) ∨ (na < s ∧ rangeCheck na s = some .outOfRange) := by
  unfold rangeCheck
  split
  · exact .inr ⟨‹_›, rfl⟩
  · exact .inl ⟨by omega, rfl⟩

/-! ### Completion -/

/-- `complete` always answers, and loads the response (R111). -/
@[simp] theorem complete_eq (r : Response) (s : State) : complete r s = .next (s.load r) := rfl

/-- Every command loads its response and does nothing else. -/
theorem exec_eq_load (i : Instr) (s : State) : exec i s = .next (s.load (responseOf s.cfg i)) := by
  cases i <;> rfl

end Sys2Proof.Machine
end

