-- ==== Sys2Proof/Laws/Clock.lean ====
section
/-! SUPPORT. Everything one clock edge can do. -/

namespace Sys2Proof.Machine

/-- Everything an accepting edge can do (R35). -/
theorem acceptEdge_cases (w : Nat) (s : State) :
    (s.cfg.lat = 0 ∧ acceptEdge w s = .next ((s.latchWord w).load (responseOf s.cfg (decode s.cfg w)))) ∨
    (s.cfg.lat ≠ 0 ∧ acceptEdge w s = .next (s.latchWord w).startFlight) := by
  unfold acceptEdge
  split
  · exact .inl ⟨‹_›, exec_eq_load _ _⟩
  · exact .inr ⟨‹_›, rfl⟩

/-- Everything an edge in flight can do (R36). -/
theorem flightEdge_cases (s : State) :
    (s.cnt = 0 ∧ flightEdge s = .next (s.endFlight.load (responseOf s.cfg (decode s.cfg s.latch)))) ∨
    (s.cnt ≠ 0 ∧ flightEdge s = .next s.countDown) := by
  unfold flightEdge
  split
  · exact .inl ⟨‹_›, exec_eq_load _ _⟩
  · exact .inr ⟨‹_›, rfl⟩

/-- Everything a clock edge can do: reset, accept, count or complete, or hold (R35 to R37, R127,
R128). -/
theorem clockEdge_cases (e : EdgeIn) (s : State) :
    (e.rst = true ∧ clockEdge e s = .next s.resetEdge) ∨
    (e.rst = false ∧ s.busy = false ∧ e.cmdValid = true ∧
      clockEdge e s = acceptEdge (s.cfg.cmdPort e.cmdWord) s) ∨
    (e.rst = false ∧ s.busy = true ∧ clockEdge e s = flightEdge s) ∨
    (e.rst = false ∧ s.busy = false ∧ e.cmdValid = false ∧ clockEdge e s = .next s) := by
  obtain ⟨rst, valid, w⟩ := e
  unfold clockEdge State.cmdReady
  cases rst <;> cases valid <;> cases hb : s.busy <;> simp

end Sys2Proof.Machine
end

