-- ==== Sys2Proof/Laws/Macros.lean ====
section
/-! SUPPORT. What the assembler, an issued line and the macros can answer. -/

namespace Sys2Proof.Machine

/-- The command-level step of an idle block (R138). -/
theorem commandStep_idle (w : Nat) {s : State} (h : s.busy = false) :
    commandStep w s = .next (({ s with latch := w, cnt := 0 } : State).load (execFn s.cfg w)) := by
  rw [commandStep, h]
  exact exec_eq_load _ _

/-- Everything the assembly of a command can answer (R69). -/
theorem assembleInstr_cases (c : Config) (i : Instr) :
    (i.wellFormed c = true ∧ assembleInstr c i = .ok (encode c i)) ∨
    (i.wellFormed c = false ∧ assembleInstr c i = .error .operandTooWide) := by
  unfold assembleInstr
  cases i.wellFormed c
  · exact .inr ⟨rfl, rfl⟩
  · exact .inl ⟨rfl, rfl⟩

/-- A SYND line is the assembly of its command, or the refusal of its codeword (R70). -/
theorem assemble_synd (c : Config) (n : Nat) (cw : CwOperand) :
    assemble c (.synd n cw) =
      match assembleCw c cw with
      | .ok a => assembleInstr c (.synd n a)
      | .error e => .error e := rfl

/-- A CORR line is the assembly of its command, or the refusal of its codeword (R70). -/
theorem assemble_corr (c : Config) (n s : Nat) (cw : CwOperand) :
    assemble c (.corr n s cw) =
      match assembleCw c cw with
      | .ok a => assembleInstr c (.corr n s a)
      | .error e => .error e := rfl

/-- What an idle block holds after the command of word `w` (R138). -/
theorem issueLine_of_assemble {line : AsmLine} {s : State} {w : Nat} (hb : s.busy = false)
    (h : assemble s.cfg line = .ok w) : issueLine line s =
      .ok (.next (({ s with latch := w, cnt := 0 } : State).load (execFn s.cfg w))) := by
  simp only [issueLine, h, commandStep_idle w hb]

/-- A line that is refused issues nothing (R69). -/
theorem issueLine_of_refused {line : AsmLine} {s : State} {e : AsmError}
    (h : assemble s.cfg line = .error e) : issueLine line s = .error e := by
  simp only [issueLine, h]

/-- Everything issuing a line to an idle block can do. -/
theorem issueLine_cases (line : AsmLine) {s : State} (hb : s.busy = false) :
    (∃ w, assemble s.cfg line = .ok w ∧ issueLine line s =
      .ok (.next (({ s with latch := w, cnt := 0 } : State).load (execFn s.cfg w)))) ∨
    (∃ e, assemble s.cfg line = .error e ∧ issueLine line s = .error e) := by
  cases h : assemble s.cfg line with
  | ok w => exact .inl ⟨w, rfl, issueLine_of_assemble hb h⟩
  | error e => exact .inr ⟨e, rfl, issueLine_of_refused h⟩

/-- Everything CHECK can do on an idle block (R71). -/
theorem macroCheck_cases (n : Nat) (cw : CwOperand) {s : State} (hb : s.busy = false) :
    (∃ w t, assemble s.cfg (.synd n cw) = .ok w ∧
      t = ({ s with latch := w, cnt := 0 } : State).load (execFn s.cfg w) ∧
      macroCheck n cw s = .ok (.next (t, checkPasses t))) ∨
    (∃ e, assemble s.cfg (.synd n cw) = .error e ∧ macroCheck n cw s = .error e) := by
  unfold macroCheck
  obtain ⟨w, hw, hi⟩ | ⟨e, he, hi⟩ := issueLine_cases (.synd n cw) hb
  · exact .inl ⟨w, _, hw, rfl, by rw [hi]⟩
  · exact .inr ⟨e, he, by rw [hi]⟩

/-- Everything DECODE can do on an idle block (R71): stop with the error of its SYND, go on to its
CORR, or refuse its operands. -/
theorem macroDecode_cases (n : Nat) (cw : CwOperand) {s : State} (hb : s.busy = false) :
    (∃ w t, assemble s.cfg (.synd n cw) = .ok w ∧
      t = ({ s with latch := w, cnt := 0 } : State).load (execFn s.cfg w) ∧
      ((t.rspErr ≠ 0 ∧ macroDecode n cw s = .ok (.next t)) ∨
        (t.rspErr = 0 ∧ macroDecode n cw s = issueLine (.corr n t.rspSyn cw) t))) ∨
    (∃ e, assemble s.cfg (.synd n cw) = .error e ∧ macroDecode n cw s = .error e) := by
  unfold macroDecode
  obtain ⟨w, hw, hi⟩ | ⟨e, he, hi⟩ := issueLine_cases (.synd n cw) hb
  · refine .inl ⟨w, _, hw, rfl, ?_⟩
    simp only [hi]
    split
    · exact .inr ⟨‹_›, rfl⟩
    · exact .inl ⟨‹_›, rfl⟩
  · exact .inr ⟨e, he, by rw [hi]⟩

end Sys2Proof.Machine
end

