-- ==== Sys2Proof/Laws/PerInstr.lean ====
section
/-! SUPPORT. Facts about every command, one lemma per constructor. -/

namespace Sys2Proof.Laws

open Sys2Proof

/-- Every command word is exactly `CW_W` bits (R66). -/
def EncodeFits.Statement (i : Instr) : Prop :=
  ∀ c : Config, i.wellFormed c = true → encode c i < 2 ^ c.cwW

theorem shiftLeft_lt_two_pow {v width lo top : Nat} (h : v < 2 ^ width) (ht : width + lo ≤ top) :
    v <<< lo < 2 ^ top :=
  Nat.lt_of_lt_of_le (Nat.shiftLeft_lt h) (Nat.pow_le_pow_right (by decide) ht)

/-- A word assembled from operands that fit is a command word (R53). -/
theorem assembleWord_lt (c : Config) {op na nb s : Nat} {a b : Nat} (hop : op < 2 ^ 3)
    (hna : na < 2 ^ c.k) (hnb : nb < 2 ^ c.k) (hs : s < 2 ^ c.k) (ha : a < 2 ^ c.nmax)
    (hb : b < 2 ^ c.nmax) : assembleWord c op na nb s a b < 2 ^ c.cwW := by
  unfold assembleWord Config.cwW
  refine Nat.or_lt_two_pow (Nat.or_lt_two_pow (Nat.or_lt_two_pow (Nat.or_lt_two_pow
    (Nat.or_lt_two_pow ?_ ?_) ?_) ?_) ?_) ?_
  · exact Nat.lt_of_lt_of_le hop (Nat.pow_le_pow_right (by decide) (by omega))
  all_goals exact shiftLeft_lt_two_pow (by assumption) (by omega)

theorem EncodeFits.ppos (na : Nat) : EncodeFits.Statement (.ppos na) := by
  intro c h
  simp only [Instr.wellFormed, fits, decide_eq_true_eq] at h
  exact assembleWord_lt c (by decide) h (by simp) (by simp) (by simp) (by simp)

theorem EncodeFits.synd (na : Nat) (a : Nat) : EncodeFits.Statement (.synd na a) := by
  intro c h
  simp only [Instr.wellFormed, fits, Bool.and_eq_true, decide_eq_true_eq] at h
  exact assembleWord_lt c (by decide) h.1 (by simp) (by simp) h.2 (by simp)

theorem EncodeFits.corr (na s : Nat) (a : Nat) : EncodeFits.Statement (.corr na s a) := by
  intro c h
  simp only [Instr.wellFormed, fits, Bool.and_eq_true, decide_eq_true_eq] at h
  exact assembleWord_lt c (by decide) h.1.1 (by simp) h.1.2 h.2 (by simp)

theorem EncodeFits.diff (na nb : Nat) (a b : Nat) : EncodeFits.Statement (.diff na nb a b) := by
  intro c h
  simp only [Instr.wellFormed, fits, Bool.and_eq_true, decide_eq_true_eq] at h
  exact assembleWord_lt c (by decide) h.1.1.1 h.1.1.2 (by simp) h.1.2 h.2

theorem EncodeFits.reserved (op : Nat) (rest : Nat) : EncodeFits.Statement (.reserved op rest) := by
  intro c h
  simp only [Instr.wellFormed, fits, Bool.and_eq_true, decide_eq_true_eq] at h
  refine Nat.or_lt_two_pow (Nat.lt_of_lt_of_le h.1.2 (Nat.pow_le_pow_right (by decide) ?_))
    (shiftLeft_lt_two_pow h.2 ?_) <;> unfold Config.cwW <;> omega

end Sys2Proof.Laws
end

