-- ==== Sys2Proof/Tests/Slice0.lean ====
section
/-! SUPPORT. The model's own tests. Words and expected results are those of spec/95_test_vectors.md
unless a comment says otherwise. Then, for every statement with hypotheses, a witness that meets
them. -/

namespace Sys2Proof.Tests

open Sys2Proof Sys2Proof.Machine

/-! ### Helpers -/

/-- The reference configuration with another latency. -/
def withLat (lat : Nat) : Config := { nmax := 8, lat := lat }

/-- The block after reset, the host about to present `w`. -/
def presenting (c : Config) (w : Nat) : State := State.resetOf c [⟨false, true, w⟩]

/-- What `f` reads in the state an outcome gives; none where it gives no state. -/
def seen {α : Type} (f : State → α) : Host.Outcome State Fault Refusal → Option α
  | .next s => some (f s)
  | .fault _ => none
  | .refused _ => none

/-- A SYND in flight with one more edge to count, `LAT = 2`. -/
def inFlight : State :=
  { State.resetOf (withLat 2) [] with latch := 0x003B8039, busy := true, cnt := 1 }

/-- The same at its completion edge. -/
def completing : State := { inFlight with cnt := 0 }

/-! ### WellFormed: one ill-formed command for each check (R61, R69) -/

theorem test_wf_ppos_na : (Instr.ppos 16).wellFormed Config.reference = false := by decide
theorem test_wf_synd_na : (Instr.synd 16 0).wellFormed Config.reference = false := by decide
theorem test_wf_synd_a : (Instr.synd 8 256).wellFormed Config.reference = false := by decide
theorem test_wf_corr_na : (Instr.corr 16 0 0).wellFormed Config.reference = false := by decide
theorem test_wf_corr_s : (Instr.corr 8 16 0).wellFormed Config.reference = false := by decide
theorem test_wf_corr_a : (Instr.corr 8 0 256).wellFormed Config.reference = false := by decide
theorem test_wf_diff_na : (Instr.diff 16 0 0 0).wellFormed Config.reference = false := by decide
theorem test_wf_diff_nb : (Instr.diff 0 16 0 0).wellFormed Config.reference = false := by decide
theorem test_wf_diff_a : (Instr.diff 0 0 256 0).wellFormed Config.reference = false := by decide
theorem test_wf_diff_b : (Instr.diff 0 0 0 256).wellFormed Config.reference = false := by decide
theorem test_wf_reserved_low : (Instr.reserved 3 0).wellFormed Config.reference = false := by decide
theorem test_wf_reserved_high : (Instr.reserved 8 0).wellFormed Config.reference = false := by decide
theorem test_wf_reserved_rest :
    (Instr.reserved 4 (2 ^ 28)).wellFormed Config.reference = false := by decide
theorem test_wf_length_above_nmax : (Instr.ppos 15).wellFormed Config.reference = true := by decide

/-! ### Decode: words written out field by field, `B A S NB NA OP` (R53, R68) -/

theorem test_decode_ppos :
    decode Config.reference 0b11111111_11111111_1111_1111_0101_000 = .ppos 5 := by decide
theorem test_decode_synd :
    decode Config.reference 0b00000000_01110111_0000_0000_0111_001 = .synd 7 0x77 := by decide
theorem test_decode_corr :
    decode Config.reference 0b00000000_01110111_0100_0000_0111_010 = .corr 7 4 0x77 := by decide
theorem test_decode_diff :
    decode Config.reference 0b00001101_00001111_0000_1000_1000_011 = .diff 8 8 0x0F 0x0D := by decide
theorem test_decode_reserved :
    decode Config.reference 0b00000000_00000000_0000_0000_0000_110 = .reserved 6 0 := by decide
/-- Another configuration, `NMAX = 3`, `K = 2`: the fields move (R53). -/
theorem test_decode_nmax_3 :
    decode { nmax := 3, lat := 0 } 0b101_011_10_01_11_011 = .diff 3 1 0b011 0b101 := by decide
theorem test_encode_diff : encode Config.reference (.diff 8 8 0x0F 0x0D) = 0x06878443 := by decide
theorem test_table_word : decodeTableWord 8 4 = some (.reserved 4 0) := by decide
/-- Bit 31 is not part of the word (R68). -/
theorem test_wide_word_refused : decodeTableWord 32 (2 ^ 31) = none := by decide

/-! ### One step of each command -/

/-- V-PPOS-8 -/
theorem test_ppos_8 :
    seen State.rspWord (step (presenting Config.reference 0x40)) = some 0x3E0 := by decide
/-- V-PPOS-x: unread fields are ignored. -/
theorem test_ppos_unread_fields :
    seen State.rspWord (step (presenting Config.reference 0x7FFFFFA8)) = some 0x1D8 := by decide
/-- V-SRC-3a: the source's scenario 3. -/
theorem test_synd_source_scenario_3 :
    seen State.rspWord (step (presenting Config.reference 0x00068041)) = some 0x1BE0 := by decide
/-- V-SYND-8: a syndrome above the length. -/
theorem test_synd_above_length :
    seen State.rspWord (step (presenting Config.reference 0x00060031)) = some 0x1DD8 := by decide
/-- V-CORR-11: flips position 6, not 2. -/
theorem test_corr_scenario_3 :
    seen State.rspWord (step (presenting Config.reference 0x0006B042)) = some 0xB4000 := by decide
/-- V-CORR-4: `s = n + 1` although the vector has a bit there. -/
theorem test_corr_out_of_range :
    seen State.rspWord (step (presenting Config.reference 0x003FC03A)) = some 0x3 := by decide
/-- V-SRC-3c -/
theorem test_diff_position_2 :
    seen State.rspWord (step (presenting Config.reference 0x06878443)) = some 0x800000 := by decide
/-- V-DIFF-9: `CAPACITY` before `INVALID_INPUT`. -/
theorem test_diff_capacity_first :
    seen State.rspWord (step (presenting Config.reference 0x00000603)) = some 0x4 := by decide
/-- V-RSVD-7 -/
theorem test_reserved_7 :
    seen State.rspWord (step (presenting Config.reference 0x7FFFBBBF)) = some 0x5 := by decide
/-- V-RSVD-0: all fields 0, still `ILLEGAL_OP`. -/
theorem test_reserved_all_zero :
    seen State.rspWord (step (presenting Config.reference 0x00000004)) = some 0x5 := by decide

/-! ### The clock, from the trace P5 with `LAT = 1` -/

/-- P5, edge e1: accept. -/
theorem test_accept_edge :
    seen (fun t => (t.busy, t.cnt, t.rspValid, t.rspWord)) (step (presenting (withLat 1) 0x003B8039)) =
      some (true, 0, false, 0) := by decide
/-- P5, edge e2: complete; the PPOS presented meanwhile is not accepted. -/
theorem test_completion_edge :
    seen (fun t => (t.busy, t.rspValid, t.latch, t.rspWord))
      (step { presenting (withLat 1) 0x00000038 with latch := 0x003B8039, busy := true }) =
      some (false, true, 0x003B8039, 0x11D8) := by decide
/-- P5, edge e0, with a command in flight: reset wins (R128). -/
theorem test_reset_edge :
    seen (fun t => (t.busy, t.rspValid, t.latch, t.rspWord))
      (step { completing with edges := [⟨true, true, 0x38⟩] }) = some (false, false, 0, 0) := by decide
/-- A word is run by the very next step, with a latency too. -/
theorem test_fetch_word_with_latency :
    seen State.rspWord (step ((State.resetOf (withLat 3) []).withFetchWord 32 0x003B8039)) =
      some 0x11D8 := by decide
/-- A host read before the first completion has no result (R135). -/
theorem test_read_before_valid : State.reset.hostRead = .refused .noResult := rfl

/-! ### The host's side -/

theorem test_string_order : vectorOfChars "10110000".toList = some 0x0D := by decide
/-- V-CORR-1 -/
theorem test_assemble_text :
    assembleText Config.reference "CORR 4, \"1110111\"".toList = .ok 0x003BA03A := rfl
/-- V-SYND-19 -/
theorem test_disassemble_text :
    disassembleText Config.reference 0x007F8049 = "SYND 9, 0xFF".toList := by decide
/-- V-RSVD-4 -/
theorem test_disassemble_reserved :
    disassembleText Config.reference 0x7FFFBBBC = ".cmd 0x7FFFBBBC".toList := by decide
/-- R70: a character that is no binary digit. -/
theorem test_assemble_bad_char :
    assembleText Config.reference "SYND \"10a\"".toList = .error .invalidInput := rfl

/-- R69: 24 does not fit the four bits of `NA`, and is not cut to 8. -/
theorem test_macro_refuses_wide_length :
    macroCheck 24 (.vec 0) State.reset = .error .operandTooWide := rfl
/-- Log entry 10: the string is reported and not the number before it. -/
theorem test_assemble_string_before_number :
    assembleText Config.reference "SYND 99, \"10a\"".toList = .error .invalidInput := rfl
/-- R71, with the codeword as a string. -/
theorem test_read_macro :
    readMacro "DECODE 7, \"1110111\"".toList = .ok (.decode 7 (.str "1110111".toList)) := rfl

/-! ### Witnesses: the hypotheses of the statements can be met -/

theorem inv_inFlight : inFlight.Inv :=
  ⟨⟨by decide, by decide, by decide, by decide, by decide, by decide, by decide⟩, by decide, by decide,
    by decide, by decide, by decide⟩

/-- The hypotheses of `DecodeOfEncode`. -/
theorem witness_DecodeOfEncode :
    (Instr.ppos 15).wellFormed Config.reference = true ∧
    (Instr.synd 15 255).wellFormed Config.reference = true ∧
    (Instr.corr 15 15 255).wellFormed Config.reference = true ∧
    (Instr.diff 15 15 255 255).wellFormed Config.reference = true ∧
    (Instr.reserved 7 (2 ^ 28 - 1)).wellFormed Config.reference = true := by decide

theorem witness_DecodeReadsTheCommandFields :
    0x40 % 8 = 0 ∧ 0x41 % 8 = 1 ∧ 0x42 % 8 = 2 ∧ 0x43 % 8 = 3 ∧ 4 ≤ 0x44 % 8 ∧ 4 ≤ 0x47 % 8 := by
  decide

theorem witness_WordsAssembleAndSplit :
    (7 < 8 ∧ 15 < 2 ^ Config.reference.k ∧ 255 < 2 ^ Config.reference.nmax) ∧
    (7 < 2 ^ Config.reference.ck ∧ 15 < 2 ^ Config.reference.k ∧ 255 < 2 ^ Config.reference.nmax) ∧
    (Instr.ppos 16).wellFormed Config.reference = false := by decide

theorem witness_UnreadBitsNeverChangeTheResponse :
    (4 < 8 ∧ 7 < 8 ∧ 3 < 2 ^ Config.reference.k ∧ 15 < 2 ^ Config.reference.k ∧
      0xF8 < 2 ^ Config.reference.nmax ∧ 0x08 < 2 ^ Config.reference.nmax) ∧
    0xF8 % 2 ^ 3 = 0x08 % 2 ^ 3 ∧ 4 ≤ 4 ∧ 4 ≤ 7 := by decide

theorem witness_PposAnswersParityPositions :
    (1 ≤ 1 ∧ 1 ≤ State.reset.cfg.nmax) ∧ (1 ≤ 8 ∧ 8 ≤ State.reset.cfg.nmax) ∧
    State.reset.cfg.nmax < 9 ∧ (0 : Nat) = 0 := by decide

theorem witness_MaskMarksPowersUpToLength :
    0 < 2 ^ Config.reference.k ∧ 15 < 2 ^ Config.reference.k ∧ 3 < Config.reference.k := by decide

/-- The hypotheses of `ParityPositionBounds`, `ParitySequenceReadOut`, `SyndromeIsSumOfParityChecks`,
`SyndromeBounds`, `SyndromeIsLinear`, `CorrAnswersFlippedCodeword`, `DiffAnswersDifferenceMask` and
`DiffSequenceReadOut`, at both ends of the range, and for the syndromes and slots they
quantify over. -/
theorem witness_lengths_in_range :
    (1 ≤ 1 ∧ 1 ≤ Config.reference.nmax) ∧ (1 ≤ 8 ∧ 8 ≤ Config.reference.nmax) ∧
    ppgCount 7 ≤ 3 ∧ 3 < bitlen 8 ∧ 6 ≤ Config.reference.nmax := by decide

theorem witness_SyndAnswersXorOfOnePositions :
    (1 ≤ 8 ∧ 8 ≤ State.reset.cfg.nmax) ∧ State.reset.cfg.nmax < 9 ∧ (0 : Nat) = 0 := by decide

theorem witness_AssemblyGateNeverChangesAValue :
    7 ≤ Config.reference.nmax ∧ bitlen 7 ≤ 3 ∧ (pen Config.reference 7).testBit 6 = true := by decide

/-- V-SYND-13: "1010101" is valid. -/
theorem validCodeword_1010101 : validCodeword Config.reference 7 0x55 := ⟨by decide, by decide, rfl⟩

theorem witness_SingleErrorSyndromeIsItsPosition :
    validCodeword Config.reference 7 0x55 ∧ 1 ≤ 7 ∧ 7 ≤ 7 :=
  ⟨validCodeword_1010101, by decide⟩

theorem witness_SourceDiscrepancyIsKept : 8 ≤ State.reset.cfg.nmax := by decide

theorem witness_CorrRefusesSyndromeAboveLength :
    1 ≤ 7 ∧ 7 ≤ State.reset.cfg.nmax ∧ 7 < 8 := by decide

theorem witness_CorrTwiceRestoresTheCodeword :
    1 ≤ 7 ∧ 7 ≤ Config.reference.nmax ∧ 0 ≤ 7 ∧ 7 ≤ 7 := by decide

theorem witness_CorrectionChangesAtMostOnePosition :
    (1 ≤ 7 ∧ 7 ≤ Config.reference.nmax ∧ 4 ≤ 7 ∧ 3 < 7 ∧
      (responseOf Config.reference (.corr 7 4 0x55)).cw.testBit 3 ≠ Nat.testBit 0x55 3) ∧
    validCodeword Config.reference 7 0x55 ∧ (1 ≤ 2 ∧ 2 ≤ 7) ∧ (1 ≤ 7 ∧ 7 ≤ 7) :=
  ⟨by decide, validCodeword_1010101, by decide⟩

theorem witness_DecodeMacroRecoversTheCodeword :
    State.reset.busy = false ∧ validCodeword State.reset.cfg 7 0x55 ∧
    0x55 < 2 ^ State.reset.cfg.nmax ∧ 1 ≤ 7 ∧ 7 ≤ 7 ∧
    assembleCw State.reset.cfg (.str "1010100".toList) = .ok (0x55 ^^^ 2 ^ (7 - 1)) ∧
    assembleCw State.reset.cfg (.vec 0x15) = .ok (0x55 ^^^ 2 ^ (7 - 1)) :=
  ⟨rfl, validCodeword_1010101, by decide, by decide, by decide, rfl, rfl⟩

theorem witness_CheckMacroPassesIffValid :
    State.reset.busy = false ∧ 9 < 2 ^ State.reset.cfg.k ∧ 0x55 < 2 ^ State.reset.cfg.nmax ∧
    ¬ (1 ≤ 9 ∧ 9 ≤ State.reset.cfg.nmax) ∧ ¬ (1 ≤ 0 ∧ 0 ≤ State.reset.cfg.nmax) ∧
    assembleCw State.reset.cfg (.str "1010101".toList) = .ok 0x55 := by
  refine ⟨by decide, by decide, by decide, by decide, by decide, rfl⟩

/-- One operand for each clause of `MacrosRefuseWhatTheAssemblerRefuses`. -/
theorem witness_MacrosRefuseWhatTheAssemblerRefuses :
    assembleCw State.reset.cfg (.str []) = .error .invalidInput ∧
    (assembleCw State.reset.cfg (.vec 256) = .ok 256 ∧ 2 ^ State.reset.cfg.nmax ≤ 256) ∧
    (2 ^ State.reset.cfg.k ≤ 16 ∧ 15 < 2 ^ State.reset.cfg.k ∧ 255 < 2 ^ State.reset.cfg.nmax ∧
      State.reset.busy = false) ∧
    State.reset.cfg.nmax < (List.replicate 9 '1').length :=
  ⟨rfl, ⟨rfl, by decide⟩, by decide, by decide⟩

theorem witness_DiffRefusesUnequalLengths :
    (1 ≤ 1 ∧ 1 ≤ State.reset.cfg.nmax) ∧ (1 ≤ 8 ∧ 8 ≤ State.reset.cfg.nmax) ∧ 1 ≠ 8 := by decide

theorem witness_ReservedOpcodeAnswersIllegalOp : 4 ≤ 0x7FFFBBBC % 8 ∧ 4 ≤ 0x7FFFBBBF % 8 := by decide

theorem witness_ErrorCodeIffItsCause :
    ∀ op rest, Instr.reserved 4 0 = .reserved op rest → 4 ≤ op := by
  intro op rest h
  cases h
  decide

theorem witness_ErrorResponseCarriesOnlyItsCode :
    (responseOf State.reset.cfg (.diff 7 8 0 0)).err ≠ 0 := by decide

/-- `NMAX = 7 = 2^K - 1` for the last clause. -/
theorem witness_CapacityIsALengthAboveNmax :
    State.reset.cfg.nmax < 9 ∧
    (State.resetOf { nmax := 7, lat := 0 } []).cfg.nmax =
      2 ^ (State.resetOf { nmax := 7, lat := 0 } []).cfg.k - 1 ∧
    (Instr.ppos 7).wellFormed (State.resetOf { nmax := 7, lat := 0 } []).cfg = true := by decide

theorem witness_ZeroLengthIsInvalidInput :
    0 ≤ State.reset.cfg.nmax ∧ 8 ≤ State.reset.cfg.nmax ∧ ∃ ch ∈ ['1', 'a'], ch ≠ '0' ∧ ch ≠ '1' :=
  ⟨by decide, by decide, 'a', by simp, by decide, by decide⟩

theorem witness_OutputBitsAboveLengthAreZero :
    lenA (.corr 7 4 0) ≤ 7 ∧ (responseOf Config.reference (.synd 7 0)).pcnt ≤ 3 := by decide

theorem witness_ResponseIgnoresHistoryAndLatency :
    State.reset.cfg.nmax = inFlight.cfg.nmax ∧ State.reset.cfg ≠ inFlight.cfg := by decide

/-- A block with `LAT = 0` that meets the invariant, for `ReadyUnlessBusyOrReset`. -/
theorem witness_ReadyUnlessBusyOrReset :
    (presenting Config.reference 0).Inv ∧ (presenting Config.reference 0).cfg.lat = 0 :=
  ⟨⟨⟨by decide, by decide, by decide, by decide, by decide, by decide, by decide⟩, by decide, by decide,
    by decide, by decide, by decide⟩, rfl⟩

/-- One state for each clause of `StepAcceptsThePresentedCommand`. -/
theorem witness_StepAcceptsThePresentedCommand :
    ((presenting Config.reference 8).edgeIn.rst = false ∧
      (presenting Config.reference 8).edgeIn.cmdValid = true ∧
      (presenting Config.reference 8).cmdReady false = true ∧
      (presenting Config.reference 8).cfg.lat = 0) ∧
    ((presenting (withLat 1) 8).edgeIn.rst = false ∧ (presenting (withLat 1) 8).edgeIn.cmdValid = true ∧
      (presenting (withLat 1) 8).cmdReady false = true ∧ (presenting (withLat 1) 8).cfg.lat ≠ 0) ∧
    ({ inFlight with edges := [⟨false, true, 8⟩] } : State).edgeIn.cmdValid = true ∧
    ({ inFlight with edges := [⟨false, true, 8⟩] } : State).cmdReady false = false := by decide

/-- The hypotheses of `StepCompletesTheLatchedCommand` and `BusyEdgeIgnoresTheCommandPort`. -/
theorem witness_StepCompletesTheLatchedCommand :
    (completing.edgeIn.rst = false ∧ completing.busy = true ∧ completing.cnt = 0) ∧
    (inFlight.edgeIn.rst = false ∧ inFlight.busy = true ∧ inFlight.cnt ≠ 0) := by decide

theorem witness_ResetEdgeGivesResetState :
    ({ completing with edges := [⟨true, true, 8⟩] } : State).edgeIn.rst = true := by decide

theorem witness_FirstCommandAfterReset :
    ({ inFlight with edges := [⟨true, false, 0⟩, ⟨false, true, 8⟩] } : State).edges =
      ⟨true, false, 0⟩ :: ⟨false, true, 8⟩ :: [] := rfl

theorem witness_QuietEdgeHoldsEveryRegister :
    State.reset.edgeIn.rst = false ∧ State.reset.edgeIn.cmdValid = false ∧ State.reset.busy = false := by
  decide

/-- A stream of one command with `LAT = 2`, then a reset edge. -/
def streamed : State :=
  State.resetOf (withLat 2) (hostStream [(0x003B8039, [⟨false, true, 8⟩, ⟨false, false, 0⟩])] ++
    [⟨true, false, 0⟩])

/-- The hypotheses of `CommandCompletesAfterLatEdges`, `ResponsesComeInIssueOrder` and
`TransactionStepIsExact`. -/
theorem witness_streamed :
    streamed.Inv ∧ streamed.busy = false ∧
    streamed.edges = ⟨false, true, 0x003B8039⟩ ::
      ([⟨false, true, 8⟩, ⟨false, false, 0⟩] ++ [⟨true, false, 0⟩]) ∧
    0x003B8039 < 2 ^ streamed.cfg.cwW ∧
    ([⟨false, true, 8⟩, ⟨false, false, 0⟩] : List EdgeIn).length = streamed.cfg.lat ∧
    (∀ e ∈ ([⟨false, true, 8⟩, ⟨false, false, 0⟩] : List EdgeIn), e.rst = false) ∧
    1 < streamed.cfg.lat ∧ inFlight.busy = true :=
  ⟨⟨⟨by decide, by decide, by decide, by decide, by decide, by decide, by decide⟩, by decide, by decide,
    by decide, by decide, by decide⟩, rfl, rfl, by decide, rfl, by decide, by decide, rfl⟩

/-- A reset edge one edge before completion, then a quiet edge. -/
theorem witness_ResetLosesTheCommandInFlight :
    (State.resetOf (withLat 2) [⟨false, true, 8⟩, ⟨false, false, 0⟩, ⟨true, true, 8⟩,
      ⟨false, false, 0⟩]).edges =
      ⟨false, true, 8⟩ :: ([⟨false, false, 0⟩] ++ ⟨true, true, 8⟩ :: ([⟨false, false, 0⟩] ++ [])) ∧
    ([⟨false, false, 0⟩] : List EdgeIn).length < (withLat 2).lat ∧
    (∀ f ∈ ([⟨false, false, 0⟩] : List EdgeIn), f.rst = false ∧ f.cmdValid = false) := by decide

theorem witness_ResponseStaysUntilNextCompletion :
    step inFlight = .next { inFlight with cnt := 0 } ∧ inFlight.edgeIn.rst = false ∧
    ¬ (inFlight.busy = true ∧ inFlight.cnt = 0) ∧
    ¬ (inFlight.busy = false ∧ inFlight.edgeIn.cmdValid = true ∧ inFlight.cfg.lat = 0) :=
  ⟨rfl, by decide⟩

/-- A state with a response to read, for `HostReadNeedsValid`. -/
theorem witness_HostReadNeedsValid :
    State.reset.rspValid = false ∧ ({ State.reset with rspValid := true } : State).Inv :=
  ⟨rfl, ⟨by decide, by decide, by decide, by decide, by decide, by decide, by decide⟩, by decide,
    by decide, by decide, by decide, by decide⟩

/-- The hypotheses of `StepKeepsInv` and `RunEndsOnceTheHostStops`. -/
theorem witness_StepKeepsInv :
    inFlight.Inv ∧ step inFlight = .next { inFlight with cnt := 0 } ∧ inFlight.edges = [] :=
  ⟨inv_inFlight, rfl, rfl⟩

/-- One string for each clause of `StringConvertsPositionOneFirst`. -/
theorem witness_StringConvertsPositionOneFirst :
    (∃ ch ∈ ['1', 'a'], ch ≠ '0' ∧ ch ≠ '1') ∧
    (['1', '0'] ≠ [] ∧ (∀ ch ∈ ['1', '0'], ch = '0' ∨ ch = '1') ∧
      ['1', '0'].length ≤ 2 ^ Config.reference.k - 1) ∧
    (List.replicate 16 '1' ≠ [] ∧ (∀ ch ∈ List.replicate 16 '1', ch = '0' ∨ ch = '1') ∧
      2 ^ Config.reference.k - 1 < (List.replicate 16 '1').length) :=
  ⟨⟨'a', by simp, by decide, by decide⟩, ⟨by simp, by simp, by decide⟩, ⟨by simp, by simp, by decide⟩⟩

/-- A word for each row and each form of R72. -/
theorem witness_DisassemblyReassembles :
    0x7FFFFFFF < 2 ^ Config.reference.cwW ∧
    decode Config.reference 0x38 = .ppos 7 ∧
    (decode Config.reference 0x003B8039 = .synd 7 0x77 ∧
      decode Config.reference 0x007F8049 = .synd 9 0xFF) ∧
    (decode Config.reference 0x003BA03A = .corr 7 4 0x77 ∧
      decode Config.reference 0x2 = .corr 0 0 0) ∧
    (decode Config.reference 0x06878443 = .diff 8 8 0x0F 0x0D ∧
      decode Config.reference 0x00000443 = .diff 8 8 0 0 ∧
      decode Config.reference 0x000004C3 = .diff 8 9 0 0 ∧
      decode Config.reference 0x0000044B = .diff 9 8 0 0 ∧ decode Config.reference 0x3 = .diff 0 0 0 0) ∧
    4 ≤ 0x7FFFBBBC % 8 := by decide

end Sys2Proof.Tests
end

section
/-! The response depends on the command word and `NMAX` only (R17): both halves of `Exec`, the decoder
and the response of a decoded command, give the same value in configurations that differ in `LAT`. -/

namespace Sys2Proof.Machine

/-- The decoder reads `NMAX` (and `K`, which follows from it) and no other parameter (R17). -/
theorem decode_congr_nmax {c d : Config} (h : c.nmax = d.nmax) (w : Nat) : decode c w = decode d w := by
  obtain ⟨nmax, _, _⟩ := c
  obtain rfl : nmax = d.nmax := h
  rfl

/-- The response of a command depends on `NMAX` and no other parameter (R17). -/
theorem responseOf_congr_nmax {c d : Config} (h : c.nmax = d.nmax) (i : Instr) :
    responseOf c i = responseOf d i := by
  obtain ⟨nmax, _, _⟩ := c
  obtain rfl : nmax = d.nmax := h
  cases i <;> rfl

/-- `Exec` is the same function in every block with the same `NMAX`, whatever its `LAT` (R17). -/
theorem execFn_congr_nmax {c d : Config} (h : c.nmax = d.nmax) (w : Nat) : execFn c w = execFn d w := by
  rw [execFn, execFn, decode_congr_nmax h, responseOf_congr_nmax h]

/-- Loading a response is showing its six fields. -/
theorem State.load_eq_showing (s : State) (r : Response) :
    s.load r = s.showing r.err r.pcnt r.pmask r.syn r.cw r.diff := rfl

/-- A decoded word, run in any state, shows the six fields of `Exec` on that word (R16). -/
theorem exec_decode_eq_showing (w : Nat) (s : State) {r : Response} (hr : execFn s.cfg w = r) :
    exec (decode s.cfg w) s = .next (s.showing r.err r.pcnt r.pmask r.syn r.cw r.diff) := by
  rw [exec_eq_load, ← State.load_eq_showing, ← hr, execFn]

end Sys2Proof.Machine

open Sys2Proof.Machine

/-- Settles O34: in both states the command completes with the value of `Exec`, which the same `NMAX`
makes the same. -/
theorem responseIgnoresHistoryAndLatency : Obligations.ResponseIgnoresHistoryAndLatency := by
  unfold Obligations.ResponseIgnoresHistoryAndLatency
  intro w s t hnmax
  have hexec : execFn t.cfg w = execFn s.cfg w :=
    execFn_congr_nmax hnmax.symm w
  exact ⟨_, _, _, _, _, _, exec_decode_eq_showing w s rfl,
    exec_decode_eq_showing w t hexec⟩
end

section
/-! The command port: what its `CW_W` wires carry, and that the decoder reads nothing else (R23, R53). -/

namespace Sys2Proof

theorem Config.cmdPort_eq_mod (c : Config) (w : Nat) : c.cmdPort w = w % 2 ^ c.cwW :=
  bitField_zero_eq_mod w c.cwW

theorem Config.cmdPort_lt (c : Config) (w : Nat) : c.cmdPort w < 2 ^ c.cwW := bitField_lt w 0 c.cwW

/-- A field inside the command word does not see the cut to `CW_W` wires. -/
theorem Config.bitField_cmdPort (c : Config) (w lo width : Nat)
    (h : lo + width ≤ 3 + 3 * c.k + 2 * c.nmax) : bitField (c.cmdPort w) lo width = bitField w lo width :=
  bitField_bitField_zero w lo width c.cwW h

/-- The decoder reads the `CW_W` wires only: every field of R53 lies inside the command word. -/
theorem decode_cmdPort (c : Config) (w : Nat) : decode c (c.cmdPort w) = decode c w := by
  have hop : opField (c.cmdPort w) = opField w := c.bitField_cmdPort w _ _ (by omega)
  have hna : naField c (c.cmdPort w) = naField c w := c.bitField_cmdPort w _ _ (by omega)
  have hnb : nbField c (c.cmdPort w) = nbField c w := c.bitField_cmdPort w _ _ (by omega)
  have hs : sField c (c.cmdPort w) = sField c w := c.bitField_cmdPort w _ _ (by omega)
  have ha : aField c (c.cmdPort w) = aField c w := c.bitField_cmdPort w _ _ (by omega)
  have hb : bField c (c.cmdPort w) = bField c w := c.bitField_cmdPort w _ _ (by omega)
  have hrest : restField c (c.cmdPort w) = restField c w := c.bitField_cmdPort w _ _ (by omega)
  rw [decode, decode, hop, hna, hnb, hs, ha, hb, hrest]

end Sys2Proof
end

section
/-! What each kind of clock edge does (R34 to R37): one equation of `step` per kind, each under the
conditions the spec gives that kind, then one for each outcome of an acceptance and of a flight. -/

namespace Sys2Proof.Machine

/-! ### The edge, by kind -/

theorem State.cmdReady_eq_true_iff (s : State) (rst : Bool) :
    s.cmdReady rst = true ↔ s.busy = false ∧ rst = false := by
  simp [State.cmdReady]

theorem State.cmdReady_false_eq (s : State) : s.cmdReady false = !s.busy := by
  simp [State.cmdReady]

variable {s : State}

/-- An accepting edge (R35). -/
theorem step_of_accept (hrst : s.edgeIn.rst = false) (hvalid : s.edgeIn.cmdValid = true)
    (hbusy : s.busy = false) : step s = acceptEdge (s.cfg.cmdPort s.edgeIn.cmdWord) s.popEdge := by
  simp [step, clockEdge, State.cmdReady, hrst, hvalid, hbusy]

/-- An edge in flight, whatever the host presents (R36, log entry 13). -/
theorem step_of_busy (hrst : s.edgeIn.rst = false) (hbusy : s.busy = true) :
    step s = flightEdge s.popEdge := by
  simp [step, clockEdge, State.cmdReady, hrst, hbusy]

/-- An edge with nothing to do (R37). -/
theorem step_of_quiet (hrst : s.edgeIn.rst = false) (hvalid : s.edgeIn.cmdValid = false)
    (hbusy : s.busy = false) : step s = .next s.popEdge := by
  simp [step, clockEdge, hrst, hvalid, hbusy]

/-! ### Acceptance and flight, by latency and count -/

theorem acceptEdge_of_lat_zero (w : Nat) (hlat : s.cfg.lat = 0) :
    acceptEdge w s = exec (decode s.cfg w) (s.latchWord w) := if_pos hlat

theorem acceptEdge_of_lat_ne_zero (w : Nat) (hlat : s.cfg.lat ≠ 0) :
    acceptEdge w s = .next (s.latchWord w).startFlight := if_neg hlat

theorem flightEdge_of_cnt_zero (hcnt : s.cnt = 0) :
    flightEdge s = exec (decode s.cfg s.latch) s.endFlight := if_pos hcnt

theorem flightEdge_of_cnt_ne_zero (hcnt : s.cnt ≠ 0) : flightEdge s = .next s.countDown :=
  if_neg hcnt

/-! ### The step after a presented word (log entry 3) -/

/-- With `LAT = 0` the presented word is on the port of a ready block. -/
theorem presentWord_of_lat_zero (w : Nat) (hlat : s.cfg.lat = 0) :
    presentWord s w = { s with busy := false, edges := ⟨false, true, w⟩ :: s.edges } := if_pos hlat

/-- With `LAT >= 1` the presented word is in `LATCH` and about to complete. -/
theorem presentWord_of_lat_ne_zero (w : Nat) (hlat : s.cfg.lat ≠ 0) :
    presentWord s w =
      { s with latch := s.cfg.cmdPort w, busy := true, cnt := 0, edges := EdgeIn.idle :: s.edges } :=
  if_neg hlat

theorem step_presentWord_of_lat_zero (w : Nat) (hlat : s.cfg.lat = 0) :
    step (presentWord s w) =
      exec (decode s.cfg w) { s with busy := false, latch := s.cfg.cmdPort w } := by
  rw [presentWord_of_lat_zero w hlat, step_of_accept rfl rfl rfl, ← decode_cmdPort s.cfg w]
  exact acceptEdge_of_lat_zero _ hlat

theorem step_presentWord_of_lat_ne_zero (w : Nat) (hlat : s.cfg.lat ≠ 0) :
    step (presentWord s w) =
      exec (decode s.cfg w) { s with busy := false, latch := s.cfg.cmdPort w, cnt := 0 } := by
  rw [presentWord_of_lat_ne_zero w hlat, step_of_busy rfl rfl, ← decode_cmdPort s.cfg w]
  exact flightEdge_of_cnt_zero rfl

end Sys2Proof.Machine
end

section
/-! Every response of the block is legal (R24 to R29, R45, R64): an error response carries its code
alone, and each successful command's fields fit because its checks passed. -/

namespace Sys2Proof.Machine

/-! ### The parity slots of an accepted length -/

/-- The mask of an accepted length is `2^PCNT - 1` (R75, R76). -/
theorem ppgMask_eq_two_pow_bitlen_sub_one (c : Config) {n : Nat} (h : n ≤ c.nmax) :
    ppgMask c n = 2 ^ bitlen n - 1 := by
  apply Nat.eq_of_testBit_eq
  intro k
  have hk : bitlen n ≤ c.k := c.bitlen_le_k h
  have hiff : k < bitlen n ↔ 2 ^ k ≤ n := lt_bitlen_iff
  rw [testBit_ppgMask, Nat.testBit_two_pow_sub_one, ← Bool.decide_and, decide_eq_decide]
  constructor
  · exact fun hslot => hiff.mpr hslot.2
  · exact fun hlt => ⟨by omega, hiff.mp hlt⟩

/-- The assembly mux clears every syndrome bit at and above `bitlen(n)` (R85, R88). -/
theorem syndrome_lt_two_pow_bitlen (c : Config) (n a : Nat) : syndrome c n a < 2 ^ bitlen n := by
  apply Nat.lt_pow_two_of_testBit
  intro k hk
  have hn : ¬ 2 ^ k ≤ n := Nat.not_le.mpr (bitlen_le_iff.mp hk)
  simp [syndrome, testBit_ppgMask, hn]

/-! ### Legal responses -/

theorem zero_response_legal (c : Config) : Response.Legal c ⟨0, 0, 0, 0, 0, 0⟩ where
  err_le := by decide
  pcnt_le := Nat.zero_le _
  pmask_eq := rfl
  syn_lt := Nat.one_pos
  cw_lt := Nat.two_pow_pos _
  diff_lt := Nat.two_pow_pos _
  error_empty := fun _ => rfl

theorem raiseErr_legal (c : Config) (e : ErrCode) : (raiseErr e).Legal c :=
  { zero_response_legal c with
    err_le := by cases e <;> decide
    error_empty := fun _ => rfl }

/-- `rmux` writes the code of success, so nothing it answers carries an error (R67). -/
@[simp] theorem rmux_err (o : Output) : (rmux o).err = 0 := by cases o <;> rfl

theorem rmux_positions_legal (c : Config) {n : Nat} (h : n ≤ c.nmax) :
    (rmux (.positions (ppgCount n) (ppgMask c n))).Legal c :=
  { zero_response_legal c with
    pcnt_le := c.bitlen_le_k h
    pmask_eq := ppgMask_eq_two_pow_bitlen_sub_one c h
    syn_lt := Nat.two_pow_pos _
    error_empty := fun herr => absurd (rmux_err _) herr }

theorem rmux_syndrome_legal (c : Config) {n : Nat} (a : Nat) (h : n ≤ c.nmax) :
    (rmux (.syndrome (ppgCount n) (ppgMask c n) (syndrome c n a))).Legal c :=
  { rmux_positions_legal c h with
    syn_lt := syndrome_lt_two_pow_bitlen c n a
    error_empty := fun herr => absurd (rmux_err _) herr }

theorem rmux_corrected_legal (c : Config) {cw : Nat} (h : cw < 2 ^ c.nmax) :
    (rmux (.corrected cw)).Legal c :=
  { zero_response_legal c with
    cw_lt := h
    error_empty := fun herr => absurd (rmux_err _) herr }

theorem rmux_differences_legal (c : Config) {diff : Nat} (h : diff < 2 ^ c.nmax) :
    (rmux (.differences diff)).Legal c :=
  { zero_response_legal c with
    diff_lt := h
    error_empty := fun herr => absurd (rmux_err _) herr }

/-- A response is legal when its result is legal in the case that no check failed (R114). -/
theorem respond_legal {c : Config} {e : Option ErrCode} {o : Output}
    (h : e = none → (rmux o).Legal c) : (respond e o).Legal c := by
  cases e with
  | none => exact h rfl
  | some code => exact raiseErr_legal c code

/-- A command that passes `Precheck` has a length the block accepts (R114, R116). -/
theorem le_nmax_of_precheck_eq_none {c : Config} {op na nb : Nat} (h : precheck c op na nb = none) :
    na ≤ c.nmax := by
  obtain ⟨_, he⟩ | ⟨_, _, he⟩ | ⟨_, _, _, _, he⟩ | ⟨_, _, hle, _, _⟩ := precheck_cases c op na nb
  · simp [he] at h
  · simp [he] at h
  · simp [he] at h
  · exact hle

/-- `Exec` answers a legal response to every command (R24 to R29, R45, R64). -/
theorem responseOf_legal (c : Config) (i : Instr) : (responseOf c i).Legal c := by
  cases i with
  | ppos na =>
    exact respond_legal fun h => rmux_positions_legal c (le_nmax_of_precheck_eq_none h)
  | synd na a =>
    exact respond_legal fun h => rmux_syndrome_legal c a (le_nmax_of_precheck_eq_none h)
  | corr na sy a => exact respond_legal fun _ => rmux_corrected_legal c (flip_lt c na sy a)
  | diff na nb a b => exact respond_legal fun _ => rmux_differences_legal c (dcmp_lt c na a b)
  | reserved op rest => exact raiseErr_legal c .illegalOp

end Sys2Proof.Machine
end

section
/-! The invariant of the block's registers: what each update of the state needs to keep it, then each
kind of edge (R30, R33, R35 to R37, R127). -/

namespace Sys2Proof.Machine

theorem State.resetOf_inv (c : Config) (edges : List EdgeIn) : (State.resetOf c edges).Inv where
  legal := zero_response_legal c
  latch_lt := Nat.two_pow_pos _
  cnt_lt := Nat.lt_of_lt_of_le Nat.one_pos (Nat.le_max_left 1 c.lat)
  cnt_idle := fun _ => rfl
  lat_zero := fun _ => rfl
  flight := fun _ => rfl

namespace State.Inv

variable {s t : State}

/-! ### The updates of the state -/

/-- The invariant does not read the host's coming inputs. -/
theorem popEdge (h : s.Inv) : s.popEdge.Inv := { h with }

theorem latchWord (h : s.Inv) {w : Nat} (hw : w < 2 ^ s.cfg.cwW) : (s.latchWord w).Inv :=
  { h with latch_lt := hw }

/-- A response may show once no command is in flight (R30). -/
theorem load (h : s.Inv) (hbusy : s.busy = false) {r : Response} (hr : r.Legal s.cfg) :
    (s.load r).Inv :=
  { h with
    legal := hr
    flight := fun hb => absurd hb (by simp [hbusy]) }

/-- `CNT` starts at `LAT - 1`, below its bound since `LAT >= 1` (R35). -/
theorem startFlight (h : s.Inv) (hlat : s.cfg.lat ≠ 0) : s.startFlight.Inv :=
  { h with
    cnt_lt := by
      rw [State.startFlight_cnt, State.startFlight_cfg]
      omega
    cnt_idle := fun hb => absurd hb (by simp)
    lat_zero := fun h0 => absurd h0 hlat
    flight := fun _ => rfl }

theorem countDown (h : s.Inv) : s.countDown.Inv :=
  { h with
    cnt_lt := Nat.lt_of_le_of_lt (Nat.sub_le s.cnt 1) h.cnt_lt
    cnt_idle := fun hb => by rw [State.countDown_cnt, h.cnt_idle hb] }

/-- A flight may end when `CNT` has reached 0 (R36). -/
theorem endFlight (h : s.Inv) (hcnt : s.cnt = 0) : s.endFlight.Inv :=
  { h with
    cnt_idle := fun _ => hcnt
    lat_zero := fun _ => rfl
    flight := fun hb => absurd hb (by simp) }

/-! ### The kinds of edge -/

theorem of_acceptEdge (h : s.Inv) (hbusy : s.busy = false) {w : Nat} (hw : w < 2 ^ s.cfg.cwW)
    (ht : acceptEdge w s = .next t) : t.Inv := by
  have hlatched : (s.latchWord w).Inv := h.latchWord hw
  obtain ⟨_, he⟩ | ⟨hlat, he⟩ := acceptEdge_cases w s
  · cases he.symm.trans ht
    exact hlatched.load hbusy (responseOf_legal s.cfg _)
  · cases he.symm.trans ht
    exact hlatched.startFlight hlat

theorem of_flightEdge (h : s.Inv) (ht : flightEdge s = .next t) : t.Inv := by
  obtain ⟨hcnt, he⟩ | ⟨_, he⟩ := flightEdge_cases s
  · cases he.symm.trans ht
    exact (h.endFlight hcnt).load rfl (responseOf_legal s.cfg _)
  · cases he.symm.trans ht
    exact h.countDown

theorem of_clockEdge (h : s.Inv) {e : EdgeIn} (ht : clockEdge e s = .next t) : t.Inv := by
  obtain ⟨_, he⟩ | ⟨_, hbusy, _, he⟩ | ⟨_, _, he⟩ | ⟨_, _, _, he⟩ := clockEdge_cases e s
  · cases he.symm.trans ht
    exact State.resetOf_inv s.cfg s.edges
  · exact h.of_acceptEdge hbusy (s.cfg.cmdPort_lt e.cmdWord) (he.symm.trans ht)
  · exact h.of_flightEdge (he.symm.trans ht)
  · cases he.symm.trans ht
    exact h

end State.Inv
end Sys2Proof.Machine
end

section
/-! The statements of 10_state.md about one edge and about the invariant. -/

open Sys2Proof Sys2Proof.Machine

/-- Settles O52: an edge is a reset, an acceptance, an edge in flight or a quiet one, and each keeps
the invariant. -/
theorem stepKeepsInv : Obligations.StepKeepsInv := by
  unfold Obligations.StepKeepsInv
  exact fun s t h ht => h.popEdge.of_clockEdge ht

/-- Settles O33: a command loads its response and does nothing else. -/
theorem everyCommandCompletesAndKeepsTheRest : Obligations.EveryCommandCompletesAndKeepsTheRest := by
  unfold Obligations.EveryCommandCompletesAndKeepsTheRest
  exact fun i s => ⟨_, exec_eq_load i s, rfl, rfl, rfl, rfl, rfl, rfl, rfl⟩

/-- Settles O35: with `LAT = 0` the invariant keeps `BUSY` at 0. -/
theorem readyUnlessBusyOrReset : Obligations.ReadyUnlessBusyOrReset := by
  unfold Obligations.ReadyUnlessBusyOrReset
  intro s rst
  refine ⟨s.cmdReady_eq_true_iff rst, fun hinv hlat => ?_⟩
  exact (s.cmdReady_eq_true_iff false).mpr ⟨hinv.lat_zero hlat, rfl⟩

/-- Settles O36: a ready block takes the word on the port, by its latency; a busy one has its edge in
flight, whatever the port holds. -/
theorem stepAcceptsThePresentedCommand : Obligations.StepAcceptsThePresentedCommand := by
  unfold Obligations.StepAcceptsThePresentedCommand
  intro s hrst hvalid
  rw [← Config.cmdPort_eq_mod, State.cmdReady_false_eq]
  refine ⟨fun hready hlat => ?_, fun hready hlat => ?_, fun hready => ?_⟩
  · rw [step_of_accept hrst hvalid (by simpa using hready)]
    exact acceptEdge_of_lat_zero _ hlat
  · rw [step_of_accept hrst hvalid (by simpa using hready)]
    exact acceptEdge_of_lat_ne_zero _ hlat
  · have hbusy : s.busy = true := by simpa using hready
    rw [step_of_busy hrst hbusy]
    symm
    exact step_of_busy rfl hbusy

/-- Settles O37: a busy block has its edge in flight, which `CNT` decides. -/
theorem stepCompletesTheLatchedCommand : Obligations.StepCompletesTheLatchedCommand := by
  unfold Obligations.StepCompletesTheLatchedCommand
  intro s hrst hbusy
  rw [step_of_busy hrst hbusy]
  exact ⟨fun hcnt => flightEdge_of_cnt_zero hcnt, fun hcnt => flightEdge_of_cnt_ne_zero hcnt⟩

/-- Settles O38: the presented word is on the port when `LAT = 0` and in `LATCH` at its completion edge
otherwise, and the decoder does not see the cut to `CW_W` wires. -/
theorem fetchWordRunsAtTheNextStep : Obligations.FetchWordRunsAtTheNextStep := by
  unfold Obligations.FetchWordRunsAtTheNextStep
  intro s nbits w
  rw [State.withFetchWord, bitField_zero_eq_mod, ← Config.cmdPort_eq_mod]
  by_cases hlat : s.cfg.lat = 0
  · rw [step_presentWord_of_lat_zero _ hlat, if_pos hlat]
  · rw [step_presentWord_of_lat_ne_zero _ hlat, if_neg hlat]

/-- Settles O41: a quiet edge only takes the host's next inputs. -/
theorem quietEdgeHoldsEveryRegister : Obligations.QuietEdgeHoldsEveryRegister := by
  unfold Obligations.QuietEdgeHoldsEveryRegister
  exact fun s hrst hvalid hbusy => step_of_quiet hrst hvalid hbusy

/-- Settles O51: the reference configuration is one of the configurations. -/
theorem resetStateMeetsInv : Obligations.ResetStateMeetsInv := by
  unfold Obligations.ResetStateMeetsInv
  exact ⟨State.resetOf_inv Config.reference [], State.resetOf_inv⟩
end

section
/-! Runs of several edges: a run cut in two, the edges in flight, and a whole command from its accepting
edge to its completion edge (R35, R36, R139). -/

namespace Sys2Proof.Machine

/-! ### Cutting a run -/

theorem run_succ_of_step {s t : State} (h : step s = .next t) (n : Nat) :
    run (n + 1) s = run n t := by
  rw [run, h]

/-- A run that reaches a next state has passed its first edge. -/
theorem exists_step_of_run_succ {n : Nat} {s t : State} (h : run (n + 1) s = .next t) :
    ∃ u, step s = .next u ∧ run n u = .next t := by
  cases hs : step s with
  | next u => exact ⟨u, rfl, by rwa [run_succ_of_step hs] at h⟩
  | fault f => simp [run, hs] at h
  | refused r => simp [run, hs] at h

/-- A run of `m + n` edges is one of `n` edges from the state its first `m` edges lead to. -/
theorem run_add_of_run {m : Nat} {s t : State} (h : run m s = .next t) (n : Nat) :
    run (m + n) s = run n t := by
  induction m generalizing s with
  | zero =>
    cases h
    rw [Nat.zero_add]
  | succ m ih =>
    obtain ⟨u, hu, hrun⟩ := exists_step_of_run_succ h
    rw [Nat.add_right_comm, run_succ_of_step hu, ih hrun]

/-! ### The edges in flight (R36) -/

/-- The edge in flight with inputs `e`, whatever `e` presents. -/
theorem step_cons_of_busy {s : State} {e : EdgeIn} (edges : List EdgeIn) (hrst : e.rst = false)
    (hbusy : s.busy = true) :
    step { s with edges := e :: edges } = flightEdge { s with edges := edges } :=
  step_of_busy (s := { s with edges := e :: edges }) hrst hbusy

/-- While `CNT` lasts, each edge in flight counts it down by one, whatever the host presents. -/
theorem run_countDown {s : State} {flight : List EdgeIn} (rest : List EdgeIn) (hbusy : s.busy = true)
    (hrst : ∀ e ∈ flight, e.rst = false) (hcnt : flight.length ≤ s.cnt) :
    run flight.length { s with edges := flight ++ rest } =
      .next { s with cnt := s.cnt - flight.length, edges := rest } := by
  induction flight generalizing s with
  | nil => rfl
  | cons e flight ih =>
    obtain ⟨he, hflight⟩ := List.forall_mem_cons.mp hrst
    rw [List.length_cons] at hcnt
    have hstep : step { s with edges := e :: (flight ++ rest) } =
        .next { s with cnt := s.cnt - 1, edges := flight ++ rest } := by
      rw [step_cons_of_busy _ he hbusy]
      exact flightEdge_of_cnt_ne_zero (show s.cnt ≠ 0 by omega)
    have hrun := ih (s := { s with cnt := s.cnt - 1 }) hbusy hflight (by simp only; omega)
    rw [List.length_cons, List.cons_append, run_succ_of_step hstep, hrun, Nat.sub_sub, Nat.add_comm 1]

/-- `CNT + 1` edges in flight complete the command in `LATCH`. -/
theorem run_flight {s : State} {flight : List EdgeIn} (rest : List EdgeIn) (hbusy : s.busy = true)
    (hrst : ∀ e ∈ flight, e.rst = false) (hlen : flight.length = s.cnt + 1) :
    run flight.length { s with edges := flight ++ rest } =
      .next (({ s with busy := false, cnt := 0, edges := rest } : State).load
        (execFn s.cfg s.latch)) := by
  obtain rfl | ⟨counting, last, rfl⟩ := flight.eq_nil_or_concat'
  · simp at hlen
  · obtain ⟨hcounting, hlast⟩ := List.forall_mem_append.mp hrst
    have hcnt : counting.length = s.cnt := by simpa using hlen
    have hcount := run_countDown (last :: rest) hbusy hcounting hcnt.le
    rw [hcnt, Nat.sub_self] at hcount
    have hstep : step { s with cnt := 0, edges := last :: rest } =
        .next (({ s with busy := false, cnt := 0, edges := rest } : State).load
          (execFn s.cfg s.latch)) := by
      rw [step_cons_of_busy (s := { s with cnt := 0 }) _ (hlast last (List.mem_singleton_self last))
        hbusy, flightEdge_of_cnt_zero rfl, exec_eq_load]
      rfl
    rw [hlen, List.append_assoc, List.singleton_append, run_add_of_run hcount, run_succ_of_step hstep]
    rfl

/-! ### A whole command (R139) -/

/-- What an idle block holds when the command of word `w` has completed: its response, and the accepted
word in `LATCH`. A flight leaves `CNT` at 0; with `LAT = 0` there is none (R35, R36). -/
def State.answered (s : State) (w : Nat) : State :=
  ({ s with latch := s.cfg.cmdPort w, busy := false,
            cnt := if s.cfg.lat = 0 then s.cnt else 0 } : State).load (execFn s.cfg w)

@[simp] theorem State.answered_cfg (s : State) (w : Nat) : (s.answered w).cfg = s.cfg := rfl
@[simp] theorem State.answered_edges (s : State) (w : Nat) : (s.answered w).edges = s.edges := rfl
@[simp] theorem State.answered_busy (s : State) (w : Nat) : (s.answered w).busy = false := rfl
@[simp] theorem State.answered_rspValid (s : State) (w : Nat) : (s.answered w).rspValid = true := rfl
@[simp] theorem State.answered_response (s : State) (w : Nat) :
    (s.answered w).response = execFn s.cfg w := rfl

theorem execFn_cmdPort (c : Config) (w : Nat) : execFn c (c.cmdPort w) = execFn c w := by
  rw [execFn, decode_cmdPort, execFn]

/-- The accepting edge of the word `w` (R35). -/
theorem step_present {s : State} (w : Nat) (edges : List EdgeIn) (hbusy : s.busy = false) :
    step { s with edges := ⟨false, true, w⟩ :: edges } =
      acceptEdge (s.cfg.cmdPort w) { s with edges := edges } :=
  step_of_accept (s := { s with edges := ⟨false, true, w⟩ :: edges }) rfl rfl hbusy

/-- With `LAT = 0` acceptance answers the word (R35). -/
theorem acceptEdge_eq_answered {s : State} (w : Nat) (hbusy : s.busy = false) (hlat : s.cfg.lat = 0) :
    acceptEdge (s.cfg.cmdPort w) s = .next (s.answered w) := by
  rw [acceptEdge_of_lat_zero _ hlat, exec_eq_load, State.answered, if_pos hlat, ← execFn_cmdPort,
    ← hbusy]
  rfl

/-- With `LAT = 0` the accepting edge answers the presented word (R35). -/
theorem step_present_of_lat_zero {s : State} (w : Nat) (edges : List EdgeIn) (hbusy : s.busy = false)
    (hlat : s.cfg.lat = 0) :
    step { s with edges := ⟨false, true, w⟩ :: edges } =
      .next (({ s with edges := edges } : State).answered w) := by
  rw [step_present w edges hbusy]
  exact acceptEdge_eq_answered (s := { s with edges := edges }) w hbusy hlat

/-- With `LAT >= 1` the accepting edge puts the presented word in flight (R35). -/
theorem step_present_of_lat_ne_zero {s : State} (w : Nat) (edges : List EdgeIn)
    (hbusy : s.busy = false) (hlat : s.cfg.lat ≠ 0) :
    step { s with edges := ⟨false, true, w⟩ :: edges } =
      .next (({ s with edges := edges } : State).latchWord (s.cfg.cmdPort w)).startFlight := by
  rw [step_present w edges hbusy]
  exact acceptEdge_of_lat_ne_zero _ hlat

/-- A command presented to an idle block has completed after `LAT + 1` edges, whatever the host
presents in flight (R139). -/
theorem run_command {s : State} {flight : List EdgeIn} (w : Nat) (rest : List EdgeIn)
    (hbusy : s.busy = false) (hlen : flight.length = s.cfg.lat) (hrst : ∀ e ∈ flight, e.rst = false) :
    run (s.cfg.lat + 1) { s with edges := ⟨false, true, w⟩ :: (flight ++ rest) } =
      .next (({ s with edges := rest } : State).answered w) := by
  by_cases hlat : s.cfg.lat = 0
  · have hnil : flight = [] := List.length_eq_zero_iff.mp (hlen.trans hlat)
    have hstep := step_present_of_lat_zero w (flight ++ rest) hbusy hlat
    rw [run_succ_of_step hstep, hlat, hnil]
    rfl
  · have hstep := step_present_of_lat_ne_zero w (flight ++ rest) hbusy hlat
    have hflight := run_flight (s := (s.latchWord (s.cfg.cmdPort w)).startFlight) rest rfl hrst
      (by rw [State.startFlight_cnt, State.latchWord_cfg]; omega)
    rw [run_succ_of_step hstep, State.answered, if_neg hlat, ← execFn_cmdPort, ← hlen]
    exact hflight

/-- After `m + 1` commands' worth of edges an idle block shows the response of word `m` of the
stream (R49). -/
theorem run_hostStream {s : State} {stream : List (Nat × List EdgeIn)} (rest : List EdgeIn)
    (hbusy : s.busy = false)
    (hstream : ∀ p ∈ stream, p.2.length = s.cfg.lat ∧ ∀ e ∈ p.2, e.rst = false)
    {m : Nat} {p : Nat × List EdgeIn} (hp : stream[m]? = some p) :
    ∃ u : State, u.cfg = s.cfg ∧
      run ((m + 1) * (s.cfg.lat + 1)) { s with edges := hostStream stream ++ rest } =
        .next (u.answered p.1) := by
  induction stream generalizing s m with
  | nil => simp at hp
  | cons q stream ih =>
    obtain ⟨⟨hlen, hrst⟩, hstream⟩ := List.forall_mem_cons.mp hstream
    have hedges : hostStream (q :: stream) ++ rest =
        ⟨false, true, q.1⟩ :: (q.2 ++ (hostStream stream ++ rest)) := by
      simp [hostStream]
    have hfirst := run_command q.1 (hostStream stream ++ rest) hbusy hlen hrst
    rw [hedges]
    cases m with
    | zero =>
      obtain rfl : q = p := by simpa using hp
      exact ⟨{ s with edges := hostStream stream ++ rest }, rfl,
        by rw [Nat.zero_add, Nat.one_mul]; exact hfirst⟩
    | succ m =>
      obtain ⟨u, hcfg, hrun⟩ := ih (s := s.answered q.1) rfl hstream (by simpa using hp)
      refine ⟨u, hcfg, ?_⟩
      rw [Nat.succ_mul (m + 1), Nat.add_comm, run_add_of_run hfirst]
      exact hrun

end Sys2Proof.Machine
end

section
/-! Bits of the response fields above the length and the count (R45). -/

namespace Sys2Proof.Machine

/-- A legal response has no mask or syndrome bit at or above its count. -/
theorem Response.Legal.testBit_ge_pcnt {c : Config} {r : Response} (h : r.Legal c) {k : Nat}
    (hk : r.pcnt ≤ k) : r.pmask.testBit k = false ∧ r.syn.testBit k = false := by
  have hsyn : r.syn < 2 ^ k := h.syn_lt.trans_le (Nat.pow_le_pow_right Nat.two_pos hk)
  rw [h.pmask_eq, Nat.testBit_two_pow_sub_one]
  exact ⟨decide_eq_false (Nat.not_lt.mpr hk), Nat.testBit_lt_two_pow hsyn⟩

/-- A bit that is 0 in the result's codeword and difference fields is 0 in the response: an error
response has no bit set in either (R115). -/
theorem respond_outputBits {o : Output} {j : Nat} (e : Option ErrCode)
    (h : (rmux o).cw.testBit j = false ∧ (rmux o).diff.testBit j = false) :
    (respond e o).cw.testBit j = false ∧ (respond e o).diff.testBit j = false := by
  cases e with
  | none => exact h
  | some code => exact ⟨Nat.zero_testBit j, Nat.zero_testBit j⟩

/-- FLIP and DCMP clear the positions the length does not enable, and no other command writes the
two fields (R67, R97, R105). -/
theorem responseOf_testBit_ge_lenA (c : Config) (i : Instr) {j : Nat} (hj : lenA i ≤ j) :
    (responseOf c i).cw.testBit j = false ∧ (responseOf c i).diff.testBit j = false := by
  cases i with
  | ppos na => exact respond_outputBits _ ⟨Nat.zero_testBit j, Nat.zero_testBit j⟩
  | synd na a => exact respond_outputBits _ ⟨Nat.zero_testBit j, Nat.zero_testBit j⟩
  | corr na sy a =>
    have hflip : (flip c na sy a).testBit j = false := by
      simp [show ¬ j < na from Nat.not_lt.mpr hj]
    exact respond_outputBits _ ⟨hflip, Nat.zero_testBit j⟩
  | diff na nb a b =>
    have hdcmp : (dcmp c na a b).testBit j = false := by
      simp [show ¬ j < na from Nat.not_lt.mpr hj]
    exact respond_outputBits _ ⟨Nat.zero_testBit j, hdcmp⟩
  | reserved op rest => exact ⟨Nat.zero_testBit j, Nat.zero_testBit j⟩

end Sys2Proof.Machine
end

section
/-! What the host's string conversion answers (R42). -/

namespace Sys2Proof.Machine

/-! ### The vector of a string, by its first character -/

@[simp] theorem vectorOfChars_nil : vectorOfChars [] = some 0 := rfl

theorem vectorOfChars_cons_zero (cs : List Char) :
    vectorOfChars ('0' :: cs) = (vectorOfChars cs).map fun v => 2 * v := by
  rw [vectorOfChars]
  cases vectorOfChars cs <;> rfl

theorem vectorOfChars_cons_one (cs : List Char) :
    vectorOfChars ('1' :: cs) = (vectorOfChars cs).map fun v => 2 * v + 1 := by
  rw [vectorOfChars]
  cases vectorOfChars cs <;> rfl

theorem vectorOfChars_cons_of_not_digit {ch : Char} (h0 : ch ≠ '0') (h1 : ch ≠ '1')
    (cs : List Char) : vectorOfChars (ch :: cs) = none := by
  rw [vectorOfChars]
  cases vectorOfChars cs <;> simp [h0, h1]

theorem vectorOfChars_cons_of_none {cs : List Char} (h : vectorOfChars cs = none) (ch : Char) :
    vectorOfChars (ch :: cs) = none := by
  rw [vectorOfChars, h]

/-! ### The vector of a whole string -/

/-- One character that is no binary digit spoils the string. -/
theorem vectorOfChars_eq_none {cs : List Char} (h : ∃ ch ∈ cs, ch ≠ '0' ∧ ch ≠ '1') :
    vectorOfChars cs = none := by
  induction cs with
  | nil => simp at h
  | cons c cs ih =>
    obtain ⟨ch, hmem, h0, h1⟩ := h
    obtain rfl | hmem := List.mem_cons.mp hmem
    · exact vectorOfChars_cons_of_not_digit h0 h1 cs
    · exact vectorOfChars_cons_of_none (ih ⟨ch, hmem, h0, h1⟩) c

/-- A binary string spells the vector whose bit `j` is character `j`. -/
theorem exists_vectorOfChars {cs : List Char} (h : ∀ ch ∈ cs, ch = '0' ∨ ch = '1') :
    ∃ a, vectorOfChars cs = some a ∧ ∀ j, a.testBit j = (cs[j]? == some '1') := by
  induction cs with
  | nil => exact ⟨0, rfl, fun j => by simp⟩
  | cons ch cs ih =>
    obtain ⟨hch, hcs⟩ := List.forall_mem_cons.mp h
    obtain ⟨a, ha, hbits⟩ := ih hcs
    obtain rfl | rfl := hch
    · refine ⟨2 * a, by rw [vectorOfChars_cons_zero, ha]; rfl, fun j => ?_⟩
      cases j with
      | zero => simp
      | succ j => simp [Nat.testBit_succ, hbits]
    · refine ⟨2 * a + 1, by rw [vectorOfChars_cons_one, ha]; rfl, fun j => ?_⟩
      cases j with
      | zero => simp
      | succ j => simp [Nat.testBit_succ, hbits, show (2 * a + 1) / 2 = a by omega]

/-! ### The conversion -/

theorem hostConvert_of_none (c : Config) {cs : List Char} (h : vectorOfChars cs = none) :
    hostConvert c cs = .error .invalidInput := by
  cases cs with
  | nil => rfl
  | cons ch cs => simp [hostConvert, h]

/-- A binary string converts unless its length does not fit `NA`. -/
theorem hostConvert_of_some (c : Config) {cs : List Char} {a : Nat} (hne : cs ≠ [])
    (h : vectorOfChars cs = some a) :
    hostConvert c cs = if 2 ^ c.k - 1 < cs.length then .error .capacity else .ok (cs.length, a) := by
  cases cs with
  | nil => exact absurd rfl hne
  | cons ch cs => simp only [hostConvert, h]

end Sys2Proof.Machine
end

section
/-! The statements of 20_memory.md. -/

open Sys2Proof Sys2Proof.Machine

/-- Settles O32: the enabled positions end at the length, and a legal response's mask and syndrome
end at the count. -/
theorem outputBitsAboveLengthAreZero : Obligations.OutputBitsAboveLengthAreZero := by
  unfold Obligations.OutputBitsAboveLengthAreZero
  exact fun c i => ⟨fun _ => responseOf_testBit_ge_lenA c i,
    fun _ => (responseOf_legal c i).testBit_ge_pcnt⟩

/-- Settles O46, by induction on the stream: each command takes `LAT + 1` edges and leaves an idle block
before the rest of the stream. -/
theorem responsesComeInIssueOrder : Obligations.ResponsesComeInIssueOrder := by
  unfold Obligations.ResponsesComeInIssueOrder
  intro s stream rest hbusy hedges hstream m p hp
  obtain ⟨u, hcfg, hrun⟩ := run_hostStream rest hbusy hstream hp
  rw [← hedges] at hrun
  exact ⟨_, hrun, rfl, rfl, by rw [State.answered_response, hcfg]⟩

/-- Settles O53, by the vector of the string: there is none if a character is no digit, and its bits
are the characters otherwise. -/
theorem stringConvertsPositionOneFirst : Obligations.StringConvertsPositionOneFirst := by
  unfold Obligations.StringConvertsPositionOneFirst
  intro c cs
  refine ⟨fun hnil => by rw [hnil, hostConvert],
    fun hbad => hostConvert_of_none c (vectorOfChars_eq_none hbad), fun hne hdigits => ?_, by decide⟩
  obtain ⟨a, ha, hbits⟩ := exists_vectorOfChars hdigits
  rw [hostConvert_of_some c hne ha]
  exact ⟨fun hlong => if_pos hlong, fun hfits => ⟨a, if_neg (Nat.not_lt.mpr hfits), hbits⟩⟩
end

section
/-! Words laid out field by field (R53, R60). A field placed on top of the bits below it, by an OR of
shifted values, is read back from its place, and a field placed higher up does not change a read
below it. -/

namespace Sys2Proof

/-! ### One field on top of the bits below it -/

theorem bitField_eq_div_mod (w lo width : Nat) : bitField w lo width = w / 2 ^ lo % 2 ^ width := by
  rw [bitField, Nat.shiftRight_eq_div_pow]

theorem or_shiftLeft_lt_two_pow {x v lo width top : Nat} (hx : x < 2 ^ lo) (hv : v < 2 ^ width)
    (htop : lo + width = top) : x ||| v <<< lo < 2 ^ top :=
  Nat.or_lt_two_pow (hx.trans_le (Nat.pow_le_pow_right Nat.two_pos (by omega)))
    (Laws.shiftLeft_lt_two_pow hv (by omega))

/-- The top field is read back from its place. -/
theorem bitField_or_shiftLeft {x v lo width : Nat} (hx : x < 2 ^ lo) (hv : v < 2 ^ width) :
    bitField (x ||| v <<< lo) lo width = v := by
  rw [bitField, Nat.shiftRight_or_distrib, Nat.shiftRight_eq_zero x lo hx, Nat.shiftLeft_shiftRight,
    Nat.zero_or, Nat.mod_eq_of_lt hv]

/-- A read below the top field does not see it. -/
theorem bitField_or_shiftLeft_of_le {lo width place : Nat} (x v : Nat) (h : lo + width ≤ place) :
    bitField (x ||| v <<< place) lo width = bitField x lo width := by
  apply Nat.eq_of_testBit_eq
  intro i
  by_cases hi : i < width
  · simp [hi, show ¬ place ≤ lo + i by omega]
  · simp [hi]

/-! ### The six fields of the command word (R53) -/

/-- Operands of the assembly that fit their fields (R69). -/
structure OperandsFit (c : Config) (op na nb s a b : Nat) : Prop where
  op_lt : op < 2 ^ 3
  na_lt : na < 2 ^ c.k
  nb_lt : nb < 2 ^ c.k
  s_lt : s < 2 ^ c.k
  a_lt : a < 2 ^ c.nmax
  b_lt : b < 2 ^ c.nmax

namespace OperandsFit

variable {c : Config} {op na nb s a b : Nat} (h : OperandsFit c op na nb s a b)
include h

/-! The bits below each field end where it begins. -/

theorem below_nb : op ||| na <<< 3 < 2 ^ (3 + c.k) := or_shiftLeft_lt_two_pow h.op_lt h.na_lt rfl

theorem below_s : op ||| na <<< 3 ||| nb <<< (3 + c.k) < 2 ^ (3 + 2 * c.k) :=
  or_shiftLeft_lt_two_pow h.below_nb h.nb_lt (by omega)

theorem below_a : op ||| na <<< 3 ||| nb <<< (3 + c.k) ||| s <<< (3 + 2 * c.k) < 2 ^ (3 + 3 * c.k) :=
  or_shiftLeft_lt_two_pow h.below_s h.s_lt (by omega)

theorem below_b :
    op ||| na <<< 3 ||| nb <<< (3 + c.k) ||| s <<< (3 + 2 * c.k) ||| a <<< (3 + 3 * c.k) <
      2 ^ (3 + 3 * c.k + c.nmax) :=
  or_shiftLeft_lt_two_pow h.below_a h.a_lt rfl

theorem assembleWord_lt : assembleWord c op na nb s a b < 2 ^ c.cwW :=
  Laws.assembleWord_lt c h.op_lt h.na_lt h.nb_lt h.s_lt h.a_lt h.b_lt

/-! Each operand is read back from its field, as the fields above it do not reach down. -/

theorem opField_assembleWord : opField (assembleWord c op na nb s a b) = op := by
  simp (disch := omega) only [opField, assembleWord, bitField_or_shiftLeft_of_le]
  exact bitField_zero_of_lt h.op_lt

theorem naField_assembleWord : naField c (assembleWord c op na nb s a b) = na := by
  simp (disch := omega) only [naField, assembleWord, bitField_or_shiftLeft_of_le]
  exact bitField_or_shiftLeft h.op_lt h.na_lt

theorem nbField_assembleWord : nbField c (assembleWord c op na nb s a b) = nb := by
  simp (disch := omega) only [nbField, assembleWord, bitField_or_shiftLeft_of_le]
  exact bitField_or_shiftLeft h.below_nb h.nb_lt

theorem sField_assembleWord : sField c (assembleWord c op na nb s a b) = s := by
  simp (disch := omega) only [sField, assembleWord, bitField_or_shiftLeft_of_le]
  exact bitField_or_shiftLeft h.below_s h.s_lt

theorem aField_assembleWord : aField c (assembleWord c op na nb s a b) = a := by
  simp (disch := omega) only [aField, assembleWord, bitField_or_shiftLeft_of_le]
  exact bitField_or_shiftLeft h.below_a h.a_lt

theorem bField_assembleWord : bField c (assembleWord c op na nb s a b) = b :=
  bitField_or_shiftLeft h.below_b h.b_lt

end OperandsFit
end Sys2Proof
end

section
/-! The decoder selects the command from `OP` alone (R61), and reads back what the encoder wrote (R69). -/

namespace Sys2Proof

/-! ### Decoding, by `OP` -/

theorem opField_eq_mod (w : Nat) : opField w = w % 8 := bitField_zero_eq_mod w 3

variable {c : Config} {w : Nat}

theorem decode_of_op_zero (h : opField w = 0) : decode c w = .ppos (naField c w) := by
  simp only [decode, h]

theorem decode_of_op_one (h : opField w = 1) : decode c w = .synd (naField c w) (aField c w) := by
  simp only [decode, h]

theorem decode_of_op_two (h : opField w = 2) :
    decode c w = .corr (naField c w) (sField c w) (aField c w) := by
  simp only [decode, h]

theorem decode_of_op_three (h : opField w = 3) :
    decode c w = .diff (naField c w) (nbField c w) (aField c w) (bField c w) := by
  simp only [decode, h]

theorem decode_of_four_le_op (h : 4 ≤ opField w) :
    decode c w = .reserved (opField w) (restField c w) := by
  unfold decode
  split
  iterate 4 · omega
  · rfl

/-- Everything the decoder can answer. -/
theorem decode_cases (c : Config) (w : Nat) :
    (opField w = 0 ∧ decode c w = .ppos (naField c w)) ∨
    (opField w = 1 ∧ decode c w = .synd (naField c w) (aField c w)) ∨
    (opField w = 2 ∧ decode c w = .corr (naField c w) (sField c w) (aField c w)) ∨
    (opField w = 3 ∧
      decode c w = .diff (naField c w) (nbField c w) (aField c w) (bField c w)) ∨
    (4 ≤ opField w ∧ decode c w = .reserved (opField w) (restField c w)) := by
  obtain h | h | h | h | h :
      opField w = 0 ∨ opField w = 1 ∨ opField w = 2 ∨ opField w = 3 ∨ 4 ≤ opField w := by omega
  · exact .inl ⟨h, decode_of_op_zero h⟩
  · exact .inr (.inl ⟨h, decode_of_op_one h⟩)
  · exact .inr (.inr (.inl ⟨h, decode_of_op_two h⟩))
  · exact .inr (.inr (.inr (.inl ⟨h, decode_of_op_three h⟩)))
  · exact .inr (.inr (.inr (.inr ⟨h, decode_of_four_le_op h⟩)))

/-! ### Which commands have a word (R69) -/

@[simp] theorem fits_iff {width v : Nat} : fits width v = true ↔ v < 2 ^ width := decide_eq_true_iff

variable {op na nb s a b : Nat}

theorem wellFormed_ppos_iff : (Instr.ppos na).wellFormed c = true ↔ na < 2 ^ c.k := by
  simp [Instr.wellFormed]

theorem wellFormed_synd_iff :
    (Instr.synd na a).wellFormed c = true ↔ na < 2 ^ c.k ∧ a < 2 ^ c.nmax := by
  simp [Instr.wellFormed]

theorem wellFormed_corr_iff :
    (Instr.corr na s a).wellFormed c = true ↔ na < 2 ^ c.k ∧ s < 2 ^ c.k ∧ a < 2 ^ c.nmax := by
  simp [Instr.wellFormed, and_assoc]

theorem wellFormed_diff_iff :
    (Instr.diff na nb a b).wellFormed c = true ↔
      na < 2 ^ c.k ∧ nb < 2 ^ c.k ∧ a < 2 ^ c.nmax ∧ b < 2 ^ c.nmax := by
  simp [Instr.wellFormed, and_assoc]

theorem wellFormed_reserved_iff {rest : Nat} :
    (Instr.reserved op rest).wellFormed c = true ↔
      4 ≤ op ∧ op < 2 ^ 3 ∧ rest < 2 ^ (3 * c.k + 2 * c.nmax) := by
  simp [Instr.wellFormed, and_assoc]

/-- What the decoder reads has a command word again: a field fits its width (R63, R66). -/
theorem decode_wellFormed (c : Config) (w : Nat) : (decode c w).wellFormed c = true := by
  have hfield (lo width : Nat) : bitField w lo width < 2 ^ width := bitField_lt w lo width
  obtain ⟨_, h⟩ | ⟨_, h⟩ | ⟨_, h⟩ | ⟨_, h⟩ | ⟨hop, h⟩ := decode_cases c w <;> rw [h]
  · exact wellFormed_ppos_iff.mpr (hfield _ _)
  · exact wellFormed_synd_iff.mpr ⟨hfield _ _, hfield _ _⟩
  · exact wellFormed_corr_iff.mpr ⟨hfield _ _, hfield _ _, hfield _ _⟩
  · exact wellFormed_diff_iff.mpr ⟨hfield _ _, hfield _ _, hfield _ _, hfield _ _⟩
  · exact wellFormed_reserved_iff.mpr ⟨hop, hfield _ _, hfield _ _⟩

/-! ### Decoding an assembled word -/

theorem decode_assembleWord_ppos (h : OperandsFit c 0 na nb s a b) :
    decode c (assembleWord c 0 na nb s a b) = .ppos na := by
  rw [decode_of_op_zero h.opField_assembleWord, h.naField_assembleWord]

theorem decode_assembleWord_synd (h : OperandsFit c 1 na nb s a b) :
    decode c (assembleWord c 1 na nb s a b) = .synd na a := by
  rw [decode_of_op_one h.opField_assembleWord, h.naField_assembleWord, h.aField_assembleWord]

theorem decode_assembleWord_corr (h : OperandsFit c 2 na nb s a b) :
    decode c (assembleWord c 2 na nb s a b) = .corr na s a := by
  rw [decode_of_op_two h.opField_assembleWord, h.naField_assembleWord, h.sField_assembleWord,
    h.aField_assembleWord]

theorem decode_assembleWord_diff (h : OperandsFit c 3 na nb s a b) :
    decode c (assembleWord c 3 na nb s a b) = .diff na nb a b := by
  rw [decode_of_op_three h.opField_assembleWord, h.naField_assembleWord, h.nbField_assembleWord,
    h.aField_assembleWord, h.bField_assembleWord]

/-! ### Decoding an encoded command -/

theorem encode_lt (c : Config) (i : Instr) (h : i.wellFormed c = true) : encode c i < 2 ^ c.cwW := by
  cases i with
  | ppos na => exact Laws.EncodeFits.ppos na c h
  | synd na a => exact Laws.EncodeFits.synd na a c h
  | corr na s a => exact Laws.EncodeFits.corr na s a c h
  | diff na nb a b => exact Laws.EncodeFits.diff na nb a b c h
  | reserved op rest => exact Laws.EncodeFits.reserved op rest c h

/-- The bits above a reserved `OP` are kept whole (R72). -/
theorem decode_encode_reserved {rest : Nat} (h4 : 4 ≤ op) (hop : op < 2 ^ 3)
    (hrest : rest < 2 ^ (3 * c.k + 2 * c.nmax)) :
    decode c (encode c (.reserved op rest)) = .reserved op rest := by
  have hopField : opField (encode c (.reserved op rest)) = op := by
    rw [opField, encode, bitField_or_shiftLeft_of_le op rest (Nat.le_refl 3), bitField_zero_of_lt hop]
  have hrestField : restField c (encode c (.reserved op rest)) = rest :=
    bitField_or_shiftLeft hop hrest
  rw [decode_of_four_le_op (hopField.symm ▸ h4), hopField, hrestField]

theorem decode_encode (c : Config) (i : Instr) (h : i.wellFormed c = true) :
    decode c (encode c i) = i := by
  have hzero (width : Nat) : 0 < 2 ^ width := Nat.two_pow_pos width
  cases i with
  | ppos na =>
    have hna := wellFormed_ppos_iff.mp h
    exact decode_assembleWord_ppos ⟨by decide, hna, hzero _, hzero _, hzero _, hzero _⟩
  | synd na a =>
    obtain ⟨hna, ha⟩ := wellFormed_synd_iff.mp h
    exact decode_assembleWord_synd ⟨by decide, hna, hzero _, hzero _, ha, hzero _⟩
  | corr na s a =>
    obtain ⟨hna, hs, ha⟩ := wellFormed_corr_iff.mp h
    exact decode_assembleWord_corr ⟨by decide, hna, hzero _, hs, ha, hzero _⟩
  | diff na nb a b =>
    obtain ⟨hna, hnb, ha, hb⟩ := wellFormed_diff_iff.mp h
    exact decode_assembleWord_diff ⟨by decide, hna, hnb, hzero _, ha, hb⟩
  | reserved op rest =>
    obtain ⟨h4, hop, hrest⟩ := wellFormed_reserved_iff.mp h
    exact decode_encode_reserved h4 hop hrest

end Sys2Proof

open Sys2Proof Sys2Proof.Machine

/-- Settles O1: the encoded word fits, and each field of it is the operand the encoder put there. -/
theorem decodeOfEncode : Obligations.DecodeOfEncode := by
  unfold Obligations.DecodeOfEncode
  intro c i h
  rw [decodeWord, if_pos (encode_lt c i h), decode_encode c i h]

/-- Settles O2, by running the decoder on the five words. -/
theorem specWordsDecode : Obligations.SpecWordsDecode := by
  unfold Obligations.SpecWordsDecode
  decide

/-- Settles O3: `OP` selects the row, and a field is the digits of the word at its place. -/
theorem decodeReadsTheCommandFields : Obligations.DecodeReadsTheCommandFields := by
  unfold Obligations.DecodeReadsTheCommandFields
  intro c w
  simp only [← bitField_eq_div_mod, ← opField_eq_mod]
  exact ⟨decode_of_op_zero, decode_of_op_one, decode_of_op_two, decode_of_op_three,
    fun h => ⟨_, decode_of_four_le_op h⟩⟩
end

section
/-! The response word holds the six response fields, each at its place (R60), so that a host that splits
it reads them back (R69). -/

namespace Sys2Proof.Machine

/-- Response fields that fit their places in the response word (R60); `ERR` always does. -/
structure Response.Fits (c : Config) (r : Response) : Prop where
  pcnt_lt : r.pcnt < 2 ^ c.ck
  pmask_lt : r.pmask < 2 ^ c.k
  syn_lt : r.syn < 2 ^ c.k
  cw_lt : r.cw < 2 ^ c.nmax
  diff_lt : r.diff < 2 ^ c.nmax

variable {c : Config} {r : Response}

namespace Response.Legal

variable (h : r.Legal c)
include h

theorem two_pow_pcnt_le : 2 ^ r.pcnt ≤ 2 ^ c.k := Nat.pow_le_pow_right Nat.two_pos h.pcnt_le

/-- A legal syndrome fits `RSP_SYN`, and so the `S` field of a CORR (R27, R57). -/
theorem syn_lt_two_pow_k : r.syn < 2 ^ c.k := h.syn_lt.trans_le h.two_pow_pcnt_le

theorem fits : r.Fits c where
  pcnt_lt := h.pcnt_le.trans_lt (lt_two_pow_bitlen c.k)
  pmask_lt := by
    rw [h.pmask_eq]
    exact (Nat.sub_one_lt (Nat.two_pow_pos _).ne').trans_le h.two_pow_pcnt_le
  syn_lt := h.syn_lt_two_pow_k
  cw_lt := h.cw_lt
  diff_lt := h.diff_lt

end Response.Legal

namespace Response.Fits

variable (h : r.Fits c)
include h

/-! The bits below each field end where it begins. -/

theorem below_pmask : r.err.toNat ||| r.pcnt <<< 3 < 2 ^ (3 + c.ck) :=
  or_shiftLeft_lt_two_pow r.err.isLt h.pcnt_lt rfl

theorem below_syn :
    r.err.toNat ||| r.pcnt <<< 3 ||| r.pmask <<< (3 + c.ck) < 2 ^ (3 + c.ck + c.k) :=
  or_shiftLeft_lt_two_pow h.below_pmask h.pmask_lt rfl

theorem below_cw :
    r.err.toNat ||| r.pcnt <<< 3 ||| r.pmask <<< (3 + c.ck) ||| r.syn <<< (3 + c.ck + c.k) <
      2 ^ (3 + c.ck + 2 * c.k) :=
  or_shiftLeft_lt_two_pow h.below_syn h.syn_lt (by omega)

theorem below_diff :
    r.err.toNat ||| r.pcnt <<< 3 ||| r.pmask <<< (3 + c.ck) ||| r.syn <<< (3 + c.ck + c.k) |||
      r.cw <<< (3 + c.ck + 2 * c.k) < 2 ^ (3 + c.ck + 2 * c.k + c.nmax) :=
  or_shiftLeft_lt_two_pow h.below_cw h.cw_lt rfl

theorem responseWord_lt : responseWord c r < 2 ^ c.rwW :=
  or_shiftLeft_lt_two_pow h.below_diff h.diff_lt (by rw [Config.rwW]; omega)

/-- Splitting the response word gives the response back: each field is read from its place, as the
fields above it do not reach down. -/
theorem splitResponse_responseWord : splitResponse c (responseWord c r) = r := by
  simp (disch := omega) only [splitResponse, responseWord, bitField_or_shiftLeft_of_le,
    bitField_zero_of_lt r.err.isLt, bitField_or_shiftLeft r.err.isLt h.pcnt_lt,
    bitField_or_shiftLeft h.below_pmask h.pmask_lt, bitField_or_shiftLeft h.below_syn h.syn_lt,
    bitField_or_shiftLeft h.below_cw h.cw_lt, bitField_or_shiftLeft h.below_diff h.diff_lt,
    BitVec.ofNat_toNat, BitVec.setWidth_eq]

end Response.Fits

theorem State.Inv.response_fits {s : State} (h : s.Inv) : s.response.Fits s.cfg := h.legal.fits

theorem assembleInstr_of_wellFormed {i : Instr} (h : i.wellFormed c = true) :
    assembleInstr c i = .ok (encode c i) := if_pos h

theorem assembleInstr_of_not_wellFormed {i : Instr} (h : i.wellFormed c = false) :
    assembleInstr c i = .error .operandTooWide := if_neg (Bool.not_eq_true _ ▸ h)

end Sys2Proof.Machine

open Sys2Proof Sys2Proof.Machine

/-- Settles O4: both words are fields laid side by side, and `rsp_word` is the word of the response
registers, which the invariant keeps within their fields. -/
theorem wordsAssembleAndSplit : Obligations.WordsAssembleAndSplit := by
  unfold Obligations.WordsAssembleAndSplit
  intro c
  refine ⟨fun op na nb s a b hop hna hnb hs ha hb => ?_, fun r hpcnt hpmask hsyn hcw hdiff => ?_,
    fun w => ?_, ?_, fun i => assembleInstr_of_not_wellFormed⟩
  · have hfit : OperandsFit c op na nb s a b := ⟨hop, hna, hnb, hs, ha, hb⟩
    exact ⟨rfl, hfit.assembleWord_lt, hfit.opField_assembleWord, hfit.naField_assembleWord,
      hfit.nbField_assembleWord, hfit.sField_assembleWord, hfit.aField_assembleWord,
      hfit.bField_assembleWord⟩
  · have hfits : r.Fits c := ⟨hpcnt, hpmask, hsyn, hcw, hdiff⟩
    exact ⟨hfits.responseWord_lt, hfits.splitResponse_responseWord⟩
  · simp only [← bitField_eq_div_mod, ← opField_eq_mod]
    rfl
  · rintro s rfl
    exact ⟨rfl, fun hinv =>
      ⟨hinv.response_fits.responseWord_lt, hinv.response_fits.splitResponse_responseWord⟩⟩
end

section
/-! What a command does not read: bits of a codeword at or above its length (R44), and the fields that
are not in its row (R62). -/

namespace Sys2Proof.Machine

/-! ### The datapath reads a codeword below its length only (R44) -/

theorem testBit_eq_of_mod_eq {n a a' j : Nat} (ha : a % 2 ^ n = a' % 2 ^ n) (hj : j < n) :
    a.testBit j = a'.testBit j := by
  have hbit := congrArg (Nat.testBit · j) ha
  simpa [Nat.testBit_mod_two_pow, hj] using hbit

section Datapath

variable (c : Config) {n a a' : Nat} (ha : a % 2 ^ n = a' % 2 ^ n)
include ha

/-- PEN disables every position above the length (R83). -/
theorem pca_congr : pca c a (pen c n) = pca c a' (pen c n) := by
  apply Nat.eq_of_testBit_eq
  intro k
  rw [testBit_pca, testBit_pca]
  congr 1
  apply xorOver_congr
  intro j _
  by_cases hj : j < n
  · rw [testBit_eq_of_mod_eq ha hj]
  · simp [hj]

theorem syndrome_congr : syndrome c n a = syndrome c n a' := by
  rw [syndrome, syndrome, pca_congr c ha]

theorem flip_congr (s : Nat) : flip c n s a = flip c n s a' := by
  apply Nat.eq_of_testBit_eq
  intro j
  by_cases hj : j < n
  · simp [testBit_eq_of_mod_eq ha hj]
  · simp [hj]

theorem dcmp_congr {b b' : Nat} (hb : b % 2 ^ n = b' % 2 ^ n) : dcmp c n a b = dcmp c n a' b' := by
  apply Nat.eq_of_testBit_eq
  intro j
  by_cases hj : j < n
  · simp [testBit_eq_of_mod_eq ha hj, testBit_eq_of_mod_eq hb hj]
  · simp [hj]

theorem responseOf_synd_congr : responseOf c (.synd n a) = responseOf c (.synd n a') := by
  simp only [responseOf, syndResponse, syndrome_congr c ha]

theorem responseOf_corr_congr (s : Nat) :
    responseOf c (.corr n s a) = responseOf c (.corr n s a') := by
  simp only [responseOf, corrResponse, flip_congr c ha]

/-- DIFF reads `B` below `NB`. Where `NB` is not `NA` the result is an error, and neither codeword
counts (R106). -/
theorem responseOf_diff_congr {nb b b' : Nat} (hb : b % 2 ^ nb = b' % 2 ^ nb) :
    responseOf c (.diff n nb a b) = responseOf c (.diff n nb a' b') := by
  obtain ⟨rfl, _⟩ | ⟨_, hmismatch⟩ := lengthCheck_cases n nb
  · simp only [responseOf, diffResponse, dcmp_congr c ha hb]
  · simp only [responseOf, diffResponse, hmismatch]
    cases precheck c 3 n nb <;> rfl

end Datapath

/-! ### A reserved opcode reads nothing (R113) -/

theorem execFn_of_four_le_op (c : Config) {w : Nat} (h : 4 ≤ opField w) :
    execFn c w = reservedResponse := by
  rw [execFn, decode_of_four_le_op h, responseOf]

end Sys2Proof.Machine

open Sys2Proof Sys2Proof.Machine

/-- Settles O5: the decoder drops the fields a row does not read, and the datapath does not see a
codeword at or above its length. -/
theorem unreadBitsNeverChangeTheResponse : Obligations.UnreadBitsNeverChangeTheResponse := by
  unfold Obligations.UnreadBitsNeverChangeTheResponse
  intro c op op' na nb nb' s s' a a' b b' hop hop' hna hnb hnb' hs hs' ha ha' hb hb'
  refine ⟨?_, fun hA => ⟨?_, ?_, fun hB => ?_⟩, fun na' hna' h4 h4' => ?_⟩
  · rw [execFn, execFn, decode_assembleWord_ppos ⟨by decide, hna, hnb, hs, ha, hb⟩,
      decode_assembleWord_ppos ⟨by decide, hna, hnb', hs', ha', hb'⟩]
  · rw [execFn, execFn, decode_assembleWord_synd ⟨by decide, hna, hnb, hs, ha, hb⟩,
      decode_assembleWord_synd ⟨by decide, hna, hnb', hs', ha', hb'⟩]
    exact responseOf_synd_congr c hA
  · rw [execFn, execFn, decode_assembleWord_corr ⟨by decide, hna, hnb, hs, ha, hb⟩,
      decode_assembleWord_corr ⟨by decide, hna, hnb', hs, ha', hb'⟩]
    exact responseOf_corr_congr c hA s
  · rw [execFn, execFn, decode_assembleWord_diff ⟨by decide, hna, hnb, hs, ha, hb⟩,
      decode_assembleWord_diff ⟨by decide, hna, hnb, hs', ha', hb'⟩]
    exact responseOf_diff_congr c hA hB
  · have hfit : OperandsFit c op na nb s a b := ⟨hop, hna, hnb, hs, ha, hb⟩
    have hfit' : OperandsFit c op' na' nb' s' a' b' := ⟨hop', hna', hnb', hs', ha', hb'⟩
    rw [execFn_of_four_le_op c (hfit.opField_assembleWord.symm ▸ h4),
      execFn_of_four_le_op c (hfit'.opField_assembleWord.symm ▸ h4')]
end

section
/-! What the assembler answers to an operand, and what the macros answer to the lines they issue (R69 to
R71). -/

namespace Sys2Proof.Machine

/-! ### String operands (R70) -/

theorem assembleStr_of_none (c : Config) {cs : List Char} (h : vectorOfChars cs = none) :
    assembleStr c cs = .error .invalidInput := by
  cases cs with
  | nil => rfl
  | cons ch cs => simp only [assembleStr, h]

/-- A binary string assembles unless it is longer than `NMAX`. -/
theorem assembleStr_of_some (c : Config) {cs : List Char} {a : Nat} (hne : cs ≠ [])
    (h : vectorOfChars cs = some a) :
    assembleStr c cs = if c.nmax < cs.length then .error .stringTooLong else .ok a := by
  cases cs with
  | nil => exact absurd rfl hne
  | cons ch cs => simp only [assembleStr, h]

theorem assembleStr_of_bad (c : Config) {cs : List Char}
    (h : cs = [] ∨ ∃ ch ∈ cs, ch ≠ '0' ∧ ch ≠ '1') : assembleStr c cs = .error .invalidInput := by
  obtain rfl | hbad := h
  · rfl
  · exact assembleStr_of_none c (vectorOfChars_eq_none hbad)

theorem assembleStr_of_long (c : Config) {cs : List Char} (hdigits : ∀ ch ∈ cs, ch = '0' ∨ ch = '1')
    (hlong : c.nmax < cs.length) : assembleStr c cs = .error .stringTooLong := by
  have hne : cs ≠ [] := List.ne_nil_of_length_pos (Nat.zero_lt_of_lt hlong)
  obtain ⟨a, ha, _⟩ := exists_vectorOfChars hdigits
  rw [assembleStr_of_some c hne ha, if_pos hlong]

/-! ### Lines -/

/-- A word assembled from a command gets the command's response. -/
theorem execFn_encode {c : Config} {i : Instr} (h : i.wellFormed c = true) :
    execFn c (encode c i) = responseOf c i := by
  rw [execFn, decode_encode c i h]

section Lines

variable {c : Config} {n sy a : Nat} {cw : CwOperand}

theorem assemble_synd_eq_encode (hcw : assembleCw c cw = .ok a) (hn : n < 2 ^ c.k)
    (ha : a < 2 ^ c.nmax) : assemble c (.synd n cw) = .ok (encode c (.synd n a)) := by
  rw [assemble_synd, hcw]
  exact assembleInstr_of_wellFormed (wellFormed_synd_iff.mpr ⟨hn, ha⟩)

theorem assemble_corr_eq_encode (hcw : assembleCw c cw = .ok a) (hn : n < 2 ^ c.k)
    (hsy : sy < 2 ^ c.k) (ha : a < 2 ^ c.nmax) :
    assemble c (.corr n sy cw) = .ok (encode c (.corr n sy a)) := by
  rw [assemble_corr, hcw]
  exact assembleInstr_of_wellFormed (wellFormed_corr_iff.mpr ⟨hn, hsy, ha⟩)

theorem assemble_synd_of_bad_cw {e : AsmError} (hcw : assembleCw c cw = .error e) :
    assemble c (.synd n cw) = .error e := by
  rw [assemble_synd, hcw]

theorem assemble_synd_of_too_wide (hcw : assembleCw c cw = .ok a)
    (hwide : 2 ^ c.k ≤ n ∨ 2 ^ c.nmax ≤ a) : assemble c (.synd n cw) = .error .operandTooWide := by
  have hill : ¬ (Instr.synd n a).wellFormed c = true := by
    rw [wellFormed_synd_iff]
    omega
  rw [assemble_synd, hcw]
  exact assembleInstr_of_not_wellFormed (Bool.eq_false_of_not_eq_true hill)

end Lines

/-! ### The response of SYND (R81, R91) -/

/-- SYND succeeds exactly on the lengths the block accepts (R114). -/
theorem responseOf_synd_err_eq_zero_iff (c : Config) (n a : Nat) :
    (responseOf c (.synd n a)).err = 0 ↔ 1 ≤ n ∧ n ≤ c.nmax := by
  rw [responseOf, syndResponse]
  obtain ⟨h4, _⟩ | ⟨_, hlong, he⟩ | ⟨_, _, _, hzero, he⟩ | ⟨_, hpos, hle, _, he⟩ :=
    precheck_cases c 1 n 0
  · omega
  · rw [he, respond_some]
    exact iff_of_false (by decide) (by omega)
  · rw [he, respond_some]
    exact iff_of_false (by decide) (by omega)
  · rw [he]
    exact iff_of_true rfl ⟨hpos, hle⟩

theorem validCodeword_iff (c : Config) (n a : Nat) :
    validCodeword c n a ↔
      (responseOf c (.synd n a)).err = 0 ∧ (responseOf c (.synd n a)).syn = 0 := by
  rw [responseOf_synd_err_eq_zero_iff, validCodeword, and_assoc]

theorem checkPasses_iff (t : State) :
    checkPasses t = true ↔ t.response.err = 0 ∧ t.response.syn = 0 := by
  simp [checkPasses, State.response]

/-! ### The macros (R71) -/

section CheckAndDecode

variable {n a : Nat} {cw : CwOperand} {s : State}

/-- CHECK and DECODE issue nothing when their SYND is refused, busy block or not. -/
theorem macroCheck_of_refused {e : AsmError} (h : assemble s.cfg (.synd n cw) = .error e) :
    macroCheck n cw s = .error e := by
  rw [macroCheck, issueLine_of_refused h]

theorem macroDecode_of_refused {e : AsmError} (h : assemble s.cfg (.synd n cw) = .error e) :
    macroDecode n cw s = .error e := by
  rw [macroDecode, issueLine_of_refused h]

variable (hb : s.busy = false) (hcw : assembleCw s.cfg cw = .ok a) (hn : n < 2 ^ s.cfg.k)
  (ha : a < 2 ^ s.cfg.nmax)
include hb hcw hn ha

/-- CHECK tests the response of its SYND. -/
theorem macroCheck_of_fits : ∃ t, macroCheck n cw s = .ok (.next (t, checkPasses t)) ∧
    t.response = responseOf s.cfg (.synd n a) := by
  have hline := assemble_synd_eq_encode hcw hn ha
  obtain ⟨w, t, hw, rfl, hcheck⟩ | ⟨e, he, _⟩ := macroCheck_cases n cw hb
  · cases hw.symm.trans hline
    exact ⟨_, hcheck, execFn_encode (wellFormed_synd_iff.mpr ⟨hn, ha⟩)⟩
  · cases he.symm.trans hline

/-- DECODE stops at the error of its SYND, or goes on to the CORR of its syndrome. -/
theorem macroDecode_of_fits : ∃ t : State, t.response = responseOf s.cfg (.synd n a) ∧
    t.cfg = s.cfg ∧ t.busy = false ∧
    ((t.rspErr ≠ 0 ∧ macroDecode n cw s = .ok (.next t)) ∨
      (t.rspErr = 0 ∧ macroDecode n cw s = issueLine (.corr n t.rspSyn cw) t)) := by
  have hline := assemble_synd_eq_encode hcw hn ha
  obtain ⟨w, t, hw, rfl, hdecode⟩ | ⟨e, he, _⟩ := macroDecode_cases n cw hb
  · cases hw.symm.trans hline
    refine ⟨_, ?_, ?_, ?_, hdecode⟩
    · exact execFn_encode (wellFormed_synd_iff.mpr ⟨hn, ha⟩)
    · rfl
    · exact hb
  · cases he.symm.trans hline

/-- The CORR of DECODE is never refused, since the syndrome it takes from the response fits `S`. -/
theorem exists_macroDecode_eq_next : ∃ t, macroDecode n cw s = .ok (.next t) := by
  obtain ⟨t, hresponse, hcfg, hbusy, ⟨_, hstop⟩ | ⟨_, hgo⟩⟩ := macroDecode_of_fits hb hcw hn ha
  · exact ⟨t, hstop⟩
  · have hsyn : t.response.syn < 2 ^ s.cfg.k := by
      rw [hresponse]
      exact (responseOf_legal s.cfg (.synd n a)).syn_lt_two_pow_k
    have hline := assemble_corr_eq_encode hcw hn hsyn ha
    exact ⟨_, hgo.trans (issueLine_of_assemble hbusy (hcfg.symm ▸ hline))⟩

end CheckAndDecode
end Sys2Proof.Machine

open Sys2Proof Sys2Proof.Machine

/-- Settles O22: CHECK tests the two fields that say whether a codeword is valid, and outside `1..NMAX`
SYND answers an error, at which DECODE stops. -/
theorem checkMacroPassesIffValid : Obligations.CheckMacroPassesIffValid := by
  unfold Obligations.CheckMacroPassesIffValid
  intro s n cw a hb hn hcw ha
  constructor
  · obtain ⟨t, hcheck, hresponse⟩ := macroCheck_of_fits hb hcw hn ha
    exact ⟨t, _, hcheck, by rw [checkPasses_iff, hresponse, validCodeword_iff]⟩
  · intro hrange
    obtain ⟨t, hresponse, _, _, hdecode⟩ := macroDecode_of_fits hb hcw hn ha
    have herr : t.rspErr ≠ 0 := by
      rw [← responseOf_synd_err_eq_zero_iff s.cfg n a, ← hresponse] at hrange
      exact hrange
    obtain ⟨_, hstop⟩ | ⟨hok, _⟩ := hdecode
    · exact ⟨t, hstop, hresponse, herr⟩
    · exact absurd hok herr

/-- Settles O55: CHECK and DECODE answer what the assembly of their SYND answers, and the CORR of DECODE
always assembles. -/
theorem macrosRefuseWhatTheAssemblerRefuses : Obligations.MacrosRefuseWhatTheAssemblerRefuses := by
  unfold Obligations.MacrosRefuseWhatTheAssemblerRefuses
  intro s n cw
  refine ⟨fun e hcw => ?_, fun a hcw hwide => ?_, fun a hcw hn ha hb => ?_, fun cs => ?_⟩
  · have hline := assemble_synd_of_bad_cw (n := n) hcw
    exact ⟨macroCheck_of_refused hline, macroDecode_of_refused hline⟩
  · have hline := assemble_synd_of_too_wide hcw hwide
    exact ⟨macroCheck_of_refused hline, macroDecode_of_refused hline⟩
  · obtain ⟨t, hcheck, _⟩ := macroCheck_of_fits hb hcw hn ha
    exact ⟨⟨t, _, hcheck⟩, exists_macroDecode_eq_next hb hcw hn ha⟩
  · exact ⟨assembleStr_of_bad s.cfg, assembleStr_of_long s.cfg⟩
end

section
/-! Disassembly and reassembly (R70, R72): a printed string spells the bits of its codeword that the
command reads, and a printed vector literal all of them. -/

namespace Sys2Proof.Machine

/-! ### Printed strings -/

theorem length_charsOfVector (n a : Nat) : (charsOfVector n a).length = n := by simp [charsOfVector]

theorem spells_charsOfVector (n a : Nat) : Spells (charsOfVector n a) n a :=
  ⟨length_charsOfVector n a, fun j hj => by simp [charsOfVector, hj]⟩

theorem charsOfVector_digits (n a : Nat) : ∀ ch ∈ charsOfVector n a, ch = '0' ∨ ch = '1' := by
  intro ch hmem
  obtain ⟨j, _, rfl⟩ := List.mem_map.mp hmem
  cases a.testBit j
  · exact .inl rfl
  · exact .inr rfl

/-- A printed string reads back as the low `n` bits of the vector it was printed from. -/
theorem vectorOfChars_charsOfVector (n a : Nat) :
    vectorOfChars (charsOfVector n a) = some (a % 2 ^ n) := by
  obtain ⟨v, hv, hbits⟩ := exists_vectorOfChars (charsOfVector_digits n a)
  obtain ⟨hlen, hchars⟩ := spells_charsOfVector n a
  rw [hv, Option.some.injEq]
  apply Nat.eq_of_testBit_eq
  intro j
  rw [hbits, Nat.testBit_mod_two_pow]
  by_cases hj : j < n
  · rw [hchars j hj]
    cases a.testBit j <;> simp [hj]
  · simp [hlen, hj]

/-! ### Printed codeword operands -/

section Operands

variable {c : Config}

theorem inRange_iff {n : Nat} : inRange c n = true ↔ 1 ≤ n ∧ n ≤ c.nmax := by simp [inRange]

theorem assembleStr_charsOfVector {n : Nat} (a : Nat) (h : inRange c n = true) :
    assembleStr c (charsOfVector n a) = .ok (a % 2 ^ n) := by
  obtain ⟨hpos, hle⟩ := inRange_iff.mp h
  have hlen : (charsOfVector n a).length = n := length_charsOfVector n a
  have hne : charsOfVector n a ≠ [] := List.ne_nil_of_length_pos (hlen.symm ▸ hpos)
  rw [assembleStr_of_some c hne (vectorOfChars_charsOfVector n a), hlen, if_neg (Nat.not_lt.mpr hle)]

theorem printCw_of_inRange {n : Nat} (a : Nat) (h : inRange c n = true) :
    printCw c n a = .str (charsOfVector n a) := if_pos h

theorem printCw_of_not_inRange {n : Nat} (a : Nat) (h : inRange c n = false) :
    printCw c n a = .vec a := if_neg (ne_true_of_eq_false h)

/-- What a printed codeword operand assembles to: a vector that is no wider and that agrees with the
printed one below the length. -/
theorem exists_assembleCw_printCw (c : Config) (n a : Nat) :
    ∃ v, v ≤ a ∧ v % 2 ^ n = a % 2 ^ n ∧ assembleCw c (printCw c n a) = .ok v := by
  cases h : inRange c n with
  | true =>
    rw [printCw_of_inRange a h]
    exact ⟨a % 2 ^ n, Nat.mod_le _ _, Nat.mod_mod _ _, assembleStr_charsOfVector a h⟩
  | false =>
    rw [printCw_of_not_inRange a h]
    exact ⟨a, Nat.le_refl a, rfl, rfl⟩

end Operands

/-! ### The line of each row -/

section Rows

variable {c : Config} {w : Nat}

theorem disassemble_of_ppos {n : Nat} (h : decode c w = .ppos n) : disassemble c w = .ppos n := by
  rw [disassemble, h]

theorem disassemble_of_synd {n a : Nat} (h : decode c w = .synd n a) :
    disassemble c w = if inRange c n then .syndStr (charsOfVector n a) else .synd n (.vec a) := by
  rw [disassemble, h]

theorem disassemble_of_corr {n s a : Nat} (h : decode c w = .corr n s a) :
    disassemble c w =
      if inRange c n then .corrStr s (charsOfVector n a) else .corr n s (.vec a) := by
  rw [disassemble, h]

theorem disassemble_of_diff {na nb a b : Nat} (h : decode c w = .diff na nb a b) :
    disassemble c w = if inRange c na && inRange c nb then
      .diffStr (charsOfVector na a) (charsOfVector nb b)
    else .diff na nb (printCw c na a) (printCw c nb b) := by
  rw [disassemble, h]

theorem disassemble_of_four_le_op (h : 4 ≤ opField w) : disassemble c w = .raw w := by
  rw [disassemble, decode_of_four_le_op h]

/-- `.cmd` is the line of the reserved opcodes alone (R72). -/
theorem disassemble_eq_raw_iff : disassemble c w = .raw w ↔ 4 ≤ opField w := by
  obtain ⟨hop, h⟩ | ⟨hop, h⟩ | ⟨hop, h⟩ | ⟨hop, h⟩ | ⟨hop, _⟩ := decode_cases c w
  · rw [disassemble_of_ppos h]
    exact iff_of_false nofun (by omega)
  · rw [disassemble_of_synd h]
    refine iff_of_false ?_ (by omega)
    split <;> exact nofun
  · rw [disassemble_of_corr h]
    refine iff_of_false ?_ (by omega)
    split <;> exact nofun
  · rw [disassemble_of_diff h]
    refine iff_of_false ?_ (by omega)
    split <;> exact nofun
  · exact iff_of_true (disassemble_of_four_le_op hop) hop

/-! ### Reassembly -/

/-- A line that assembles as a well-formed command gets the command's response. -/
theorem exists_word_of_assembleInstr {line : AsmLine} {i : Instr} {r : Response}
    (hline : assemble c line = assembleInstr c i) (hi : i.wellFormed c = true)
    (hr : responseOf c i = r) : ∃ w', assemble c line = .ok w' ∧ execFn c w' = r :=
  ⟨encode c i, hline.trans (assembleInstr_of_wellFormed hi), (execFn_encode hi).trans hr⟩

/-- The line of a SYND assembles as a SYND of a codeword that agrees with it below its length. -/
theorem exists_assemble_disassemble_synd {n a : Nat} (h : decode c w = .synd n a) :
    ∃ v, v ≤ a ∧ v % 2 ^ n = a % 2 ^ n ∧
      assemble c (disassemble c w) = assembleInstr c (.synd n v) := by
  rw [disassemble_of_synd h]
  cases hn : inRange c n with
  | true =>
    refine ⟨a % 2 ^ n, Nat.mod_le _ _, Nat.mod_mod _ _, ?_⟩
    simp only [if_true, assemble, assembleStr_charsOfVector a hn, length_charsOfVector]
  | false => exact ⟨a, Nat.le_refl a, rfl, rfl⟩

theorem exists_assemble_disassemble_corr {n s a : Nat} (h : decode c w = .corr n s a) :
    ∃ v, v ≤ a ∧ v % 2 ^ n = a % 2 ^ n ∧
      assemble c (disassemble c w) = assembleInstr c (.corr n s v) := by
  rw [disassemble_of_corr h]
  cases hn : inRange c n with
  | true =>
    refine ⟨a % 2 ^ n, Nat.mod_le _ _, Nat.mod_mod _ _, ?_⟩
    simp only [if_true, assemble, assembleStr_charsOfVector a hn, length_charsOfVector]
  | false => exact ⟨a, Nat.le_refl a, rfl, rfl⟩

theorem exists_assemble_disassemble_diff {na nb a b : Nat} (h : decode c w = .diff na nb a b) :
    ∃ u v, (u ≤ a ∧ u % 2 ^ na = a % 2 ^ na) ∧ (v ≤ b ∧ v % 2 ^ nb = b % 2 ^ nb) ∧
      assemble c (disassemble c w) = assembleInstr c (.diff na nb u v) := by
  rw [disassemble_of_diff h]
  by_cases hboth : inRange c na = true ∧ inRange c nb = true
  · obtain ⟨hna, hnb⟩ := hboth
    refine ⟨a % 2 ^ na, b % 2 ^ nb, ⟨Nat.mod_le _ _, Nat.mod_mod _ _⟩,
      ⟨Nat.mod_le _ _, Nat.mod_mod _ _⟩, ?_⟩
    rw [hna, hnb]
    simp only [Bool.and_self, if_true, assemble, assembleStr_charsOfVector a hna,
      assembleStr_charsOfVector b hnb, length_charsOfVector]
  · obtain ⟨u, hu, hua, hcwa⟩ := exists_assembleCw_printCw c na a
    obtain ⟨v, hv, hvb, hcwb⟩ := exists_assembleCw_printCw c nb b
    refine ⟨u, v, ⟨hu, hua⟩, ⟨hv, hvb⟩, ?_⟩
    rw [if_neg (by simpa using hboth)]
    simp only [assemble, hcwa, hcwb]

theorem exists_reassembled_word (hw : w < 2 ^ c.cwW) :
    ∃ w', assemble c (disassemble c w) = .ok w' ∧ execFn c w' = execFn c w := by
  have hwf : (decode c w).wellFormed c = true := decode_wellFormed c w
  obtain ⟨_, h⟩ | ⟨_, h⟩ | ⟨_, h⟩ | ⟨_, h⟩ | ⟨hop, _⟩ := decode_cases c w
  · rw [disassemble_of_ppos h]
    exact exists_word_of_assembleInstr rfl (h ▸ hwf) (by rw [execFn, h])
  · obtain ⟨v, hv, hva, hline⟩ := exists_assemble_disassemble_synd h
    obtain ⟨hn, ha⟩ := wellFormed_synd_iff.mp (h ▸ hwf)
    refine exists_word_of_assembleInstr hline (wellFormed_synd_iff.mpr ⟨hn, by omega⟩) ?_
    rw [execFn, h, responseOf_synd_congr c hva]
  · obtain ⟨v, hv, hva, hline⟩ := exists_assemble_disassemble_corr h
    obtain ⟨hn, hs, ha⟩ := wellFormed_corr_iff.mp (h ▸ hwf)
    refine exists_word_of_assembleInstr hline (wellFormed_corr_iff.mpr ⟨hn, hs, by omega⟩) ?_
    rw [execFn, h, responseOf_corr_congr c hva]
  · obtain ⟨u, v, ⟨hu, hua⟩, ⟨hv, hvb⟩, hline⟩ := exists_assemble_disassemble_diff h
    obtain ⟨hna, hnb, ha, hb⟩ := wellFormed_diff_iff.mp (h ▸ hwf)
    refine exists_word_of_assembleInstr hline
      (wellFormed_diff_iff.mpr ⟨hna, hnb, by omega, by omega⟩) ?_
    rw [execFn, h, responseOf_diff_congr c hua hvb]
  · rw [disassemble_of_four_le_op hop]
    exact ⟨w, if_pos hw, rfl⟩

end Rows
end Sys2Proof.Machine

open Sys2Proof Sys2Proof.Machine

/-- Settles O54: a printed operand keeps the bits its command reads, and the form of a line follows from
which lengths are in range. -/
theorem disassemblyReassembles : Obligations.DisassemblyReassembles := by
  unfold Obligations.DisassemblyReassembles
  intro c w hw
  simp only [← inRange_iff, Bool.not_eq_true]
  refine ⟨exists_reassembled_word hw, fun n => disassemble_of_ppos, fun n a h => ?_,
    fun n s a h => ?_, fun na nb a b h => ?_, by rw [disassemble_eq_raw_iff, opField_eq_mod]⟩
  · rw [disassemble_of_synd h]
    exact ⟨fun hn => ⟨_, spells_charsOfVector n a, if_pos hn⟩, fun hn => by rw [hn]; rfl⟩
  · rw [disassemble_of_corr h]
    exact ⟨fun hn => ⟨_, spells_charsOfVector n a, if_pos hn⟩, fun hn => by rw [hn]; rfl⟩
  · rw [disassemble_of_diff h]
    refine ⟨fun hna hnb => ?_, fun hna hnb => ?_, fun hna hnb => ?_, fun hna hnb => ?_⟩ <;>
      rw [hna, hnb]
    · exact ⟨_, _, spells_charsOfVector na a, spells_charsOfVector nb b, rfl⟩
    · rw [printCw_of_inRange a hna, printCw_of_not_inRange b hnb]
      exact ⟨_, spells_charsOfVector na a, rfl⟩
    · rw [printCw_of_not_inRange a hna, printCw_of_inRange b hnb]
      exact ⟨_, spells_charsOfVector nb b, rfl⟩
    · rw [printCw_of_not_inRange a hna, printCw_of_not_inRange b hnb]
      rfl
end

section
/-! The parity slots of a length: the mask has exactly its low `bitlen(n)` bits set, which is what both
read-outs and `popcount` see of it (R74 to R76, R78). -/

namespace Sys2Proof

theorem bitlen_two_pow_sub_one (m : Nat) : bitlen (2 ^ m - 1) = m := by
  refine eq_of_forall_lt_iff fun k => ?_
  rw [lt_bitlen_iff, Nat.le_sub_one_iff_lt (Nat.two_pow_pos m),
    Nat.pow_lt_pow_iff_right Nat.one_lt_two]

/-- The set bits of the mask of `m` low bits, seen through a width that holds them. -/
theorem filter_range_testBit_two_pow_sub_one {m width : Nat} (h : m ≤ width) :
    (List.range width).filter (fun k => (2 ^ m - 1).testBit k) = List.range m := by
  obtain ⟨d, rfl⟩ := Nat.exists_eq_add_of_le h
  have hlow : (List.range m).filter (fun k => (2 ^ m - 1).testBit k) = List.range m :=
    List.filter_eq_self.mpr (by simp)
  have hhigh : ((List.range d).map (m + ·)).filter (fun k => (2 ^ m - 1).testBit k) = [] :=
    List.filter_eq_nil_iff.mpr (by simp)
  rw [List.range_add, List.filter_append, hlow, hhigh, List.append_nil]

theorem popcount_two_pow_sub_one (m : Nat) : popcount (2 ^ m - 1) = m := by
  rw [popcount, bitlen_two_pow_sub_one, filter_range_testBit_two_pow_sub_one (Nat.le_refl m),
    List.length_range]

end Sys2Proof

namespace Sys2Proof.Machine

/-- The generator has a slot for every power of two up to a length of `K` bits (R75). -/
theorem testBit_ppgMask_of_lt_two_pow_k {c : Config} {n : Nat} (h : n < 2 ^ c.k) (k : Nat) :
    (ppgMask c n).testBit k = decide (2 ^ k ≤ n) := by
  have hslot : 2 ^ k ≤ n → k < c.k := fun hk =>
    (Nat.pow_lt_pow_iff_right Nat.one_lt_two).mp (Nat.lt_of_le_of_lt hk h)
  rw [testBit_ppgMask, ← Bool.decide_and, decide_eq_decide]
  exact and_iff_right_of_imp hslot

/-- The mask of every length of `K` bits, above `NMAX` too, is `2^PCNT - 1` (R75). -/
theorem ppgMask_eq_of_lt_two_pow_k {c : Config} {n : Nat} (h : n < 2 ^ c.k) :
    ppgMask c n = 2 ^ bitlen n - 1 := by
  refine Nat.eq_of_testBit_eq fun k => ?_
  rw [testBit_ppgMask_of_lt_two_pow_k h, Nat.testBit_two_pow_sub_one, decide_eq_decide, lt_bitlen_iff]

end Sys2Proof.Machine

open Sys2Proof Sys2Proof.Machine

/-- Settles O7: the mask is `2^bitlen(n) - 1`, whose popcount is `bitlen(n)`. -/
theorem maskMarksPowersUpToLength : Obligations.MaskMarksPowersUpToLength := by
  unfold Obligations.MaskMarksPowersUpToLength
  intro c n hn
  refine ⟨fun k _ => ?_, fun k hk => ?_, ppgMask_lt c n, rfl, ?_⟩
  · rw [testBit_ppgMask_of_lt_two_pow_k hn, decide_eq_true_iff]
  · rw [ppgMask, testBit_vecOf, decide_eq_true hk, Bool.true_and]
  · rw [ppgMask_eq_of_lt_two_pow_k hn, popcount_two_pow_sub_one, ppgCount]

/-- Settles O8: the mask of an accepted length is `2^PCNT - 1`, which has no bit at or above `PCNT`. -/
theorem parityPositionBounds : Obligations.ParityPositionBounds := by
  unfold Obligations.ParityPositionBounds
  intro c n hpos hle
  have hmask : ppgMask c n = 2 ^ ppgCount n - 1 := ppgMask_eq_two_pow_bitlen_sub_one c hle
  refine ⟨bitlen_pos hpos, c.bitlen_le_k hle, hmask, fun k hk => ?_⟩
  rw [hmask, Nat.testBit_two_pow_sub_one]
  exact decide_eq_false (Nat.not_lt.mpr hk)
end

section
/-! The response of the commands of one length, PPOS and SYND, by the range the length lies in (R73,
R81, R114), and the sequence a host reads from it (R78). -/

namespace Sys2Proof.Machine

/-! ### `Precheck` of a command that reads one length (R114) -/

section OneLength

variable {c : Config} {op na nb : Nat} (hop : op < 3)
include hop

theorem precheck_of_accepted (hpos : 1 ≤ na) (hle : na ≤ c.nmax) : precheck c op na nb = none := by
  rw [precheck, if_neg (by omega), if_neg (by omega), if_neg (by omega)]

theorem precheck_of_above (h : c.nmax < na) : precheck c op na nb = some .capacity := by
  rw [precheck, if_neg (by omega), if_pos (.inl h)]

theorem precheck_of_zero : precheck c op 0 nb = some .invalidInput := by
  rw [precheck, if_neg (by omega), if_neg (by omega), if_pos (.inl rfl)]

end OneLength

/-! ### The responses -/

variable {c : Config} {n : Nat}

theorem responseOf_ppos_of_accepted (hpos : 1 ≤ n) (hle : n ≤ c.nmax) :
    responseOf c (.ppos n) = ⟨0, bitlen n, 2 ^ bitlen n - 1, 0, 0, 0⟩ := by
  rw [responseOf, pposResponse, precheck_of_accepted (by decide) hpos hle, respond_none,
    ppgMask_eq_two_pow_bitlen_sub_one c hle]
  rfl

theorem responseOf_ppos_of_above (h : c.nmax < n) : responseOf c (.ppos n) = raiseErr .capacity := by
  rw [responseOf, pposResponse, precheck_of_above (by decide) h, respond_some]

theorem responseOf_ppos_zero : responseOf c (.ppos 0) = raiseErr .invalidInput := by
  rw [responseOf, pposResponse, precheck_of_zero (by decide), respond_some]

theorem responseOf_synd_of_accepted (a : Nat) (hpos : 1 ≤ n) (hle : n ≤ c.nmax) :
    responseOf c (.synd n a) = ⟨0, bitlen n, 2 ^ bitlen n - 1, syndrome c n a, 0, 0⟩ := by
  rw [responseOf, syndResponse, precheck_of_accepted (by decide) hpos hle, respond_none,
    ppgMask_eq_two_pow_bitlen_sub_one c hle]
  rfl

/-! ### Reading out the parity positions (R78) -/

/-- The two read-outs agree on every legal response, not only on those of PPOS. -/
theorem Response.Legal.paritySequence_eq {r : Response} (h : r.Legal c) :
    paritySequence r = paritySequenceOfMask c r := by
  rw [paritySequence, paritySequenceOfMask, h.pmask_eq,
    filter_range_testBit_two_pow_sub_one h.pcnt_le]

theorem paritySequence_pairwise_lt (r : Response) : (paritySequence r).Pairwise (· < ·) :=
  List.pairwise_lt_range.map _ fun _ _ hlt => Nat.pow_lt_pow_right Nat.one_lt_two hlt

/-- A count of `bitlen(n)` reads out the powers of two up to `n` (R77). -/
theorem mem_paritySequence_iff {r : Response} (h : r.pcnt = bitlen n) {p : Nat} :
    p ∈ paritySequence r ↔ (∃ k, p = 2 ^ k) ∧ p ≤ n := by
  simp only [paritySequence, h, List.mem_map, List.mem_range, lt_bitlen_iff]
  constructor
  · rintro ⟨k, hk, rfl⟩
    exact ⟨⟨k, rfl⟩, hk⟩
  · rintro ⟨⟨k, rfl⟩, hk⟩
    exact ⟨k, hk, rfl⟩

end Sys2Proof.Machine

open Sys2Proof Sys2Proof.Machine

/-- Settles O6: the command loads the response of the range its length lies in. -/
theorem pposAnswersParityPositions : Obligations.PposAnswersParityPositions := by
  unfold Obligations.PposAnswersParityPositions
  intro s na
  refine ⟨fun hpos hle => ?_, fun h => ?_, ?_⟩
  · rw [exec_eq_load, responseOf_ppos_of_accepted hpos hle, State.load_eq_showing]
  · rw [exec_eq_load, responseOf_ppos_of_above h]
    rfl
  · rintro rfl
    rw [exec_eq_load, responseOf_ppos_zero]
    rfl

/-- Settles O9: the count of the response is `bitlen(n)`, and its mask has the slots below the count. -/
theorem paritySequenceReadOut : Obligations.ParitySequenceReadOut := by
  unfold Obligations.ParitySequenceReadOut
  intro c n a hpos hle
  have hppos := responseOf_ppos_of_accepted hpos hle
  have hsynd := responseOf_synd_of_accepted a hpos hle
  refine ⟨(responseOf_legal c _).paritySequence_eq, paritySequence_pairwise_lt _,
    fun p => mem_paritySequence_iff ?_, ?_, ?_⟩
  · rw [hppos]
  · rw [hsynd, hppos]
  · rw [hsynd, hppos]
end

section
/-! The source's definitions bit by bit: digit `k` of the XOR of the positions that hold a 1 (R89) is the
check for parity position `2^k` (R82), and both are one XOR over the codeword's bits. -/

namespace Sys2Proof

/-- A source-style XOR, over the 1-indexed positions that pass a test, as an XOR over bit indices (R13). -/
theorem foldr_xor_filter_range' (n : Nat) (p f : Nat → Bool) :
    (((List.range' 1 n).filter p).map f).foldr xor false = xorOver n fun j => p (j + 1) && f (j + 1) := by
  induction n with
  | zero => rfl
  | succ n ih =>
    have hlast : (([n + 1].filter p).map f).foldr xor false = (false ^^ (p (n + 1) && f (n + 1))) := by
      cases hp : p (n + 1) <;> simp [hp]
    rw [List.range'_1_concat, Nat.add_comm 1 n, List.filter_append, List.map_append, List.foldr_append,
      hlast, List.foldr_assoc, ih, xorOver]

theorem testBit_foldr_xor (l : List Nat) (k : Nat) :
    (l.foldr (· ^^^ ·) 0).testBit k = (l.map (·.testBit k)).foldr xor false := by
  rw [List.foldr_map, ← Nat.zero_testBit k]
  exact (List.foldr_hom (Nat.testBit · k) fun x y => (Nat.testBit_xor x y k).symm).symm

/-- The low `m` binary digits of a number, each at its weight. -/
theorem sum_testBit_mul_two_pow (x m : Nat) :
    ((List.range m).map fun k => (x.testBit k).toNat * 2 ^ k).sum = x % 2 ^ m := by
  induction m with
  | zero => simp [Nat.mod_one]
  | succ m ih =>
    rw [List.sum_range_succ, ih, Nat.mod_pow_succ, Nat.toNat_testBit, Nat.mul_comm]

end Sys2Proof

namespace Sys2Proof.Machine

/-! ### The parity check of `2^k` (R82) -/

theorem parityCheck_two_pow (n a k : Nat) :
    parityCheck n a (2 ^ k) = xorOver n fun j => a.testBit j && (j + 1).testBit k := by
  rw [parityCheck, foldr_xor_filter_range']
  refine xorOver_congr fun j _ => ?_
  have hbit : ((j + 1) &&& 2 ^ k != 0) = (j + 1).testBit k := by
    rw [Nat.and_two_pow]
    cases (j + 1).testBit k <;> simp
  rw [hbit, Bool.and_comm, Nat.add_sub_cancel]

/-- No position up to `n` has a bit at or above `bitlen(n)`, so no such check covers a position (R90). -/
theorem parityCheck_of_bitlen_le {n k : Nat} (a : Nat) (h : bitlen n ≤ k) :
    parityCheck n a (2 ^ k) = false := by
  rw [parityCheck_two_pow, ← xorOver_false n]
  refine xorOver_congr fun j hj => ?_
  rw [testBit_eq_false_of_bitlen_le ((bitlen_mono hj).trans h), Bool.and_false]

theorem parityCheck_xor (n a b k : Nat) :
    parityCheck n (a ^^^ b) (2 ^ k) = (parityCheck n a (2 ^ k) ^^ parityCheck n b (2 ^ k)) := by
  simp only [parityCheck_two_pow, ← xorOver_xor, Nat.testBit_xor, Bool.and_xor_distrib_right]

/-! ### The XOR of the positions that hold a 1 (R89) -/

theorem testBit_xorOfOnes (n a k : Nat) : (xorOfOnes n a).testBit k = parityCheck n a (2 ^ k) := by
  rw [xorOfOnes, testBit_foldr_xor, foldr_xor_filter_range', parityCheck_two_pow]
  rfl

theorem xorOfOnes_xor (n a b : Nat) : xorOfOnes n (a ^^^ b) = xorOfOnes n a ^^^ xorOfOnes n b := by
  refine Nat.eq_of_testBit_eq fun k => ?_
  rw [Nat.testBit_xor, testBit_xorOfOnes, testBit_xorOfOnes, testBit_xorOfOnes, parityCheck_xor]

/-- A codeword with one 1, at position `k`. -/
theorem xorOfOnes_two_pow {n k : Nat} (hpos : 1 ≤ k) (hle : k ≤ n) : xorOfOnes n (2 ^ (k - 1)) = k := by
  have hones : (List.range' 1 n).filter (fun i => (2 ^ (k - 1)).testBit (i - 1)) = [k] := by
    have hcount : (List.range' 1 n).count k = 1 :=
      List.count_eq_one_of_mem List.nodup_range' (List.mem_range'_1.mpr (by omega))
    have hbeq : (List.range' 1 n).filter (· == k) = [k] := by
      rw [List.filter_beq, hcount, List.replicate_one]
    rw [← hbeq]
    refine List.filter_congr fun i hi => ?_
    have hi1 : 1 ≤ i := (List.mem_range'_1.mp hi).1
    rw [Nat.testBit_two_pow, Bool.beq_eq_decide_eq, decide_eq_decide]
    omega
  rw [xorOfOnes, hones]
  exact Nat.xor_zero k

end Sys2Proof.Machine
end

section
/-! PCA and SAM against the source's definitions, and the response of SYND by the range its length lies
in (R81 to R90). -/

namespace Sys2Proof.Machine

variable {c : Config} {n : Nat}

/-- The array computes the source's checks, and 0 above them (R82, R90). -/
theorem testBit_pca_pen (a k : Nat) (hle : n ≤ c.nmax) :
    (pca c a (pen c n)).testBit k = parityCheck n a (2 ^ k) := by
  have harray : (xorOver c.nmax fun j => a.testBit j && (pen c n).testBit j && (j + 1).testBit k) =
      parityCheck n a (2 ^ k) := by
    rw [parityCheck_two_pow, xorOver_extend hle fun j hj => by simp [Nat.not_lt.mpr hj]]
    exact xorOver_congr fun j hj => by simp [hj, hj.trans_le hle]
  rw [testBit_pca, harray]
  by_cases hk : k < c.k
  · rw [decide_eq_true hk, Bool.true_and]
  · have habove : bitlen n ≤ k := (c.bitlen_le_k hle).trans (Nat.not_lt.mp hk)
    rw [parityCheck_of_bitlen_le a habove, Bool.and_false]

theorem testBit_ppgMask_of_le_nmax (k : Nat) (hle : n ≤ c.nmax) :
    (ppgMask c n).testBit k = decide (k < bitlen n) := by
  rw [ppgMask_eq_two_pow_bitlen_sub_one c hle, Nat.testBit_two_pow_sub_one]

/-- The gate of the mux loses nothing, as the array gives 0 wherever it is closed (R90). -/
theorem testBit_syndrome (a k : Nat) (hle : n ≤ c.nmax) :
    (syndrome c n a).testBit k = parityCheck n a (2 ^ k) := by
  rw [syndrome, testBit_sam, testBit_pca_pen a k hle, testBit_ppgMask_of_le_nmax k hle]
  by_cases hk : k < bitlen n
  · have hslot : k < c.k := hk.trans_le (c.bitlen_le_k hle)
    rw [decide_eq_true hslot, decide_eq_true hk, Bool.true_and, Bool.true_and]
  · rw [parityCheck_of_bitlen_le a (Nat.not_lt.mp hk), Bool.and_false]

/-- The closed form of the syndrome (R89). -/
theorem syndrome_eq_xorOfOnes (a : Nat) (hle : n ≤ c.nmax) : syndrome c n a = xorOfOnes n a :=
  Nat.eq_of_testBit_eq fun k => by rw [testBit_syndrome a k hle, testBit_xorOfOnes]

/-! ### The response of SYND (R81, R116, R117) -/

theorem responseOf_synd_eq_xorOfOnes (a : Nat) (hpos : 1 ≤ n) (hle : n ≤ c.nmax) :
    responseOf c (.synd n a) = ⟨0, bitlen n, 2 ^ bitlen n - 1, xorOfOnes n a, 0, 0⟩ := by
  rw [responseOf_synd_of_accepted a hpos hle, syndrome_eq_xorOfOnes a hle]

theorem responseOf_synd_of_above (a : Nat) (h : c.nmax < n) :
    responseOf c (.synd n a) = raiseErr .capacity := by
  rw [responseOf, syndResponse, precheck_of_above (by decide) h, respond_some]

theorem responseOf_synd_zero (a : Nat) : responseOf c (.synd 0 a) = raiseErr .invalidInput := by
  rw [responseOf, syndResponse, precheck_of_zero (by decide), respond_some]

theorem exec_synd_of_accepted {s : State} (a : Nat) (hpos : 1 ≤ n) (hle : n ≤ s.cfg.nmax) :
    exec (.synd n a) s =
      .next (s.showing 0 (bitlen n) (2 ^ bitlen n - 1) (xorOfOnes n a) 0 0) := by
  rw [exec_eq_load, responseOf_synd_eq_xorOfOnes a hpos hle, State.load_eq_showing]

theorem syn_responseOf_synd (a : Nat) (hpos : 1 ≤ n) (hle : n ≤ c.nmax) :
    (responseOf c (.synd n a)).syn = xorOfOnes n a := by
  rw [responseOf_synd_eq_xorOfOnes a hpos hle]

/-- Flipping position `k` changes the syndrome by `XOR k`, by linearity (R93). -/
theorem syn_responseOf_synd_flip (a : Nat) {k : Nat} (hle : n ≤ c.nmax) (hk : 1 ≤ k) (hkn : k ≤ n) :
    (responseOf c (.synd n (a ^^^ 2 ^ (k - 1)))).syn = (responseOf c (.synd n a)).syn ^^^ k := by
  have hpos : 1 ≤ n := hk.trans hkn
  rw [syn_responseOf_synd _ hpos hle, syn_responseOf_synd a hpos hle, xorOfOnes_xor,
    xorOfOnes_two_pow hk hkn]

end Sys2Proof.Machine

open Sys2Proof Sys2Proof.Machine

/-- Settles O10: the command loads the response of the range its length lies in, and the mux assembles
the closed form. -/
theorem syndAnswersXorOfOnePositions : Obligations.SyndAnswersXorOfOnePositions := by
  unfold Obligations.SyndAnswersXorOfOnePositions
  intro s na a
  refine ⟨exec_synd_of_accepted a, fun h => ?_, ?_⟩
  · rw [exec_eq_load, responseOf_synd_of_above a h]
    rfl
  · rintro rfl
    rw [exec_eq_load, responseOf_synd_zero]
    rfl

/-- Settles O11: the array's results are the source's checks, and they are the binary digits of the
syndrome. -/
theorem syndromeIsSumOfParityChecks : Obligations.SyndromeIsSumOfParityChecks := by
  unfold Obligations.SyndromeIsSumOfParityChecks
  intro c n a hpos hle
  refine ⟨fun k _ => testBit_pca_pen a k hle, fun k hk => ?_, ?_, ?_⟩
  · rw [responseOf_synd_of_accepted a hpos hle, syndrome, sam, testBit_vecOf, decide_eq_true hk,
      Bool.true_and]
  · have hlt : syndrome c n a < 2 ^ bitlen n := syndrome_lt_two_pow_bitlen c n a
    rw [responseOf_synd_of_accepted a hpos hle]
    simp only [← testBit_syndrome a _ hle]
    rw [sum_testBit_mul_two_pow, Nat.mod_eq_of_lt hlt]
  · simp only [parityResults, responseOf_synd_eq_xorOfOnes a hpos hle, testBit_xorOfOnes]

/-- Settles O12: the syndrome is a legal response field, and positions 3 and 4 XOR to 7. -/
theorem syndromeBounds : Obligations.SyndromeBounds := by
  unfold Obligations.SyndromeBounds
  intro c n a hpos hle
  refine ⟨?_, ?_, fun h6 => ?_⟩
  · rw [responseOf_synd_of_accepted a hpos hle]
    exact Nat.le_sub_one_of_lt (syndrome_lt_two_pow_bitlen c n a)
  · exact Nat.sub_le_sub_right (Nat.pow_le_pow_right Nat.two_pos (c.bitlen_le_k hle)) 1
  · rw [responseOf_synd_eq_xorOfOnes 0b001100 (by decide) h6]
    exact ⟨by decide, rfl⟩

/-- Settles O13: an enabled position is at most `n`, so it has no bit at or above `bitlen(n)`; the mask
has none there either. -/
theorem assemblyGateNeverChangesAValue : Obligations.AssemblyGateNeverChangesAValue := by
  unfold Obligations.AssemblyGateNeverChangesAValue
  intro c n a k hle hk
  refine ⟨fun j hj => ?_, ?_, fun pc => ?_⟩
  · have hjn : j + 1 ≤ n := by
      simp only [testBit_pen, Bool.and_eq_true, decide_eq_true_eq] at hj
      exact hj.2
    exact testBit_eq_false_of_bitlen_le ((bitlen_mono hjn).trans hk)
  · rw [testBit_pca_pen a k hle, parityCheck_of_bitlen_le a hk]
  · rw [testBit_sam, testBit_ppgMask_of_le_nmax k hle, decide_eq_false (Nat.not_lt.mpr hk), Bool.and_false,
      Bool.false_and]

/-- Settles O14: the closed form is linear in the codeword, and a single 1 at position `k` has
syndrome `k`. -/
theorem syndromeIsLinear : Obligations.SyndromeIsLinear := by
  unfold Obligations.SyndromeIsLinear
  intro c n a1 a2 hpos hle
  refine ⟨?_, fun k hk hkn => syn_responseOf_synd_flip a1 hle hk hkn⟩
  rw [syn_responseOf_synd _ hpos hle, syn_responseOf_synd a1 hpos hle, syn_responseOf_synd a2 hpos hle,
    xorOfOnes_xor]

/-- Settles O15: the flip XORs its position into a syndrome of 0. -/
theorem singleErrorSyndromeIsItsPosition : Obligations.SingleErrorSyndromeIsItsPosition := by
  unfold Obligations.SingleErrorSyndromeIsItsPosition
  rintro c n v ⟨_, hle, hsyn⟩
  refine ⟨hsyn, fun k hk hkn => ?_⟩
  rw [syn_responseOf_synd_flip v hle hk hkn, hsyn, Nat.zero_xor]

/-- Settles O16: the positions that hold a 1 are 1, 3, 4 in the received word and 1 to 4 in the sent
word. -/
theorem sourceDiscrepancyIsKept : Obligations.SourceDiscrepancyIsKept := by
  unfold Obligations.SourceDiscrepancyIsKept
  have hreceived : xorOfOnes 8 0x0D = 6 := by decide
  have hsent : xorOfOnes 8 0x0F = 4 := by decide
  have hlen : bitlen 8 = 4 := by decide
  refine ⟨by decide, by decide, fun s h8 => ⟨?_, ?_⟩⟩
  · rw [exec_synd_of_accepted 0x0D (by decide) h8, hreceived, hlen]
    rfl
  · rw [exec_synd_of_accepted 0x0F (by decide) h8, hsent, hlen]
    rfl
end

section
/-! FLIP in closed form, the response of CORR by the range its syndrome lies in (R96 to R103), and the
whole of DECODE on an accepted length (R71, R101). -/

namespace Sys2Proof.Machine

variable {c : Config} {n : Nat}

/-! ### FLIP (R97) -/

theorem testBit_flip_of_le_nmax (sy a j : Nat) (hle : n ≤ c.nmax) :
    (flip c n sy a).testBit j = (decide (j < n) && (a.testBit j ^^ decide (sy = j + 1))) := by
  rw [testBit_flip]
  by_cases hj : j < n
  · rw [decide_eq_true (hj.trans_le hle), Bool.true_and]
  · rw [decide_eq_false hj, Bool.and_false]

/-- No position is 0, so syndrome 0 flips nothing (R98). -/
theorem flip_zero (a : Nat) (hle : n ≤ c.nmax) : flip c n 0 a = a % 2 ^ n :=
  Nat.eq_of_testBit_eq fun j => by
    have hj : ¬ 0 = j + 1 := by omega
    rw [testBit_flip_of_le_nmax 0 a j hle, decide_eq_false hj, Bool.xor_false, Nat.testBit_mod_two_pow]

/-- Syndrome `k` flips position `k`, which is bit `k - 1` (R99). -/
theorem flip_eq_xor_mod (a : Nat) {k : Nat} (hle : n ≤ c.nmax) (hk : 1 ≤ k) :
    flip c n k a = (a ^^^ 2 ^ (k - 1)) % 2 ^ n :=
  Nat.eq_of_testBit_eq fun j => by
    have hbit : k = j + 1 ↔ k - 1 = j := by omega
    rw [testBit_flip_of_le_nmax k a j hle, Nat.testBit_mod_two_pow, Nat.testBit_xor, Nat.testBit_two_pow,
      decide_eq_decide.mpr hbit]

/-- FLIP undoes itself (R102). -/
theorem flip_flip (sy a : Nat) (hle : n ≤ c.nmax) : flip c n sy (flip c n sy a) = a % 2 ^ n :=
  Nat.eq_of_testBit_eq fun j => by
    rw [testBit_flip_of_le_nmax _ _ _ hle, testBit_flip_of_le_nmax _ _ _ hle, Nat.testBit_mod_two_pow]
    cases decide (j < n) <;> simp

/-- FLIP undoes an error at the position the syndrome names (R101). -/
theorem flip_xor_two_pow (v : Nat) {k : Nat} (hle : n ≤ c.nmax) (hk : 1 ≤ k) :
    flip c n k (v ^^^ 2 ^ (k - 1)) = v % 2 ^ n := by
  rw [flip_eq_xor_mod _ hle hk, Nat.xor_xor_cancel_right]

/-- Only the position the syndrome names can change (R97). -/
theorem eq_of_testBit_flip_ne {sy a j : Nat} (hle : n ≤ c.nmax) (hj : j < n)
    (hne : (flip c n sy a).testBit j ≠ a.testBit j) : sy = j + 1 := by
  by_contra hsy
  rw [testBit_flip_of_le_nmax sy a j hle, decide_eq_true hj, decide_eq_false hsy] at hne
  simp at hne

/-! ### The response of CORR (R96, R100) -/

theorem responseOf_corr_of_accepted (a : Nat) {sy : Nat} (hpos : 1 ≤ n) (hle : n ≤ c.nmax)
    (hsy : sy ≤ n) : responseOf c (.corr n sy a) = ⟨0, 0, 0, 0, flip c n sy a, 0⟩ := by
  rw [responseOf, corrResponse, precheck_of_accepted (by decide) hpos hle, firstError_none, rangeCheck,
    if_neg (Nat.not_lt.mpr hsy)]
  rfl

theorem responseOf_corr_of_syndrome_above (a : Nat) {sy : Nat} (hpos : 1 ≤ n) (hle : n ≤ c.nmax)
    (hsy : n < sy) : responseOf c (.corr n sy a) = raiseErr .outOfRange := by
  rw [responseOf, corrResponse, precheck_of_accepted (by decide) hpos hle, firstError_none, rangeCheck,
    if_pos hsy, respond_some]

theorem exec_corr_of_accepted {s : State} (a : Nat) {sy : Nat} (hpos : 1 ≤ n) (hle : n ≤ s.cfg.nmax)
    (hsy : sy ≤ n) : exec (.corr n sy a) s = .next (s.showing 0 0 0 0 (flip s.cfg n sy a) 0) := by
  rw [exec_eq_load, responseOf_corr_of_accepted a hpos hle hsy, State.load_eq_showing]

/-! ### DECODE (R71) -/

/-- On an accepted length DECODE ends with the response of its CORR, whose syndrome is that of its
SYND. -/
theorem macroDecode_of_accepted {s : State} {a : Nat} {cw : CwOperand} (hb : s.busy = false)
    (hcw : assembleCw s.cfg cw = .ok a) (ha : a < 2 ^ s.cfg.nmax) (hpos : 1 ≤ n) (hle : n ≤ s.cfg.nmax) :
    ∃ t, macroDecode n cw s = .ok (.next t) ∧
      t.response = responseOf s.cfg (.corr n (responseOf s.cfg (.synd n a)).syn a) := by
  have hn : n < 2 ^ s.cfg.k := s.cfg.lt_two_pow_k hle
  have hsyn : (responseOf s.cfg (.synd n a)).syn < 2 ^ s.cfg.k :=
    (responseOf_legal s.cfg (.synd n a)).syn_lt_two_pow_k
  obtain ⟨t, hresponse, hcfg, hbusy, ⟨herr, _⟩ | ⟨_, hgo⟩⟩ := macroDecode_of_fits hb hcw hn ha
  · have hok : t.response.err = 0 := by
      rw [hresponse]
      exact (responseOf_synd_err_eq_zero_iff s.cfg n a).mpr ⟨hpos, hle⟩
    exact absurd hok herr
  · have hrspSyn : t.rspSyn = (responseOf s.cfg (.synd n a)).syn := congrArg Response.syn hresponse
    have hline := assemble_corr_eq_encode hcw hn hsyn ha
    rw [← hrspSyn, ← hcfg] at hline
    refine ⟨_, hgo.trans (issueLine_of_assemble hbusy hline), ?_⟩
    rw [State.load_response, hcfg, hrspSyn, execFn_encode (wellFormed_corr_iff.mpr ⟨hn, hsyn, ha⟩)]

end Sys2Proof.Machine

open Sys2Proof Sys2Proof.Machine

/-- Settles O17: FLIP inverts the bit whose position is the syndrome, and PEN disables the positions
above the length. -/
theorem corrAnswersFlippedCodeword : Obligations.CorrAnswersFlippedCodeword := by
  unfold Obligations.CorrAnswersFlippedCodeword
  intro s na a hpos hle
  refine ⟨?_, fun sy hsy hsyn => ?_⟩
  · rw [exec_corr_of_accepted a hpos hle (Nat.zero_le na), flip_zero a hle]
  · refine ⟨_, exec_corr_of_accepted a hpos hle hsyn, ?_, fun j hj hne => ?_, fun j hj => ?_⟩
    · rw [testBit_flip_of_le_nmax sy a _ hle, decide_eq_true (by omega : sy - 1 < na),
        decide_eq_true (by omega : sy = sy - 1 + 1), Bool.true_and, Bool.xor_true]
    · rw [testBit_flip_of_le_nmax sy a j hle, decide_eq_true hj,
        decide_eq_false (by omega : ¬ sy = j + 1), Bool.true_and, Bool.xor_false]
    · rw [testBit_flip_of_le_nmax sy a j hle, decide_eq_false (Nat.not_lt.mpr hj), Bool.false_and]

/-- Settles O18: the range check is the one that fails, and its error carries no codeword. -/
theorem corrRefusesSyndromeAboveLength : Obligations.CorrRefusesSyndromeAboveLength := by
  unfold Obligations.CorrRefusesSyndromeAboveLength
  intro s na sy a hpos hle hsy
  rw [exec_eq_load, responseOf_corr_of_syndrome_above a hpos hle hsy]
  rfl

/-- Settles O19: both commands succeed, and FLIP undoes itself. -/
theorem corrTwiceRestoresTheCodeword : Obligations.CorrTwiceRestoresTheCodeword := by
  unfold Obligations.CorrTwiceRestoresTheCodeword
  intro c n sy a hpos hle hsy
  rw [responseOf_corr_of_accepted _ hpos hle hsy, responseOf_corr_of_accepted a hpos hle hsy,
    flip_flip sy a hle]

/-- Settles O20: a changed bit is at the position the syndrome names, and each of two errors XORs its
position into a syndrome of 0. -/
theorem correctionChangesAtMostOnePosition : Obligations.CorrectionChangesAtMostOnePosition := by
  unfold Obligations.CorrectionChangesAtMostOnePosition
  intro c n a hpos hle
  refine ⟨fun sy hsy => ?_, fun ⟨_, _, hsyn⟩ p q hp hpn hq hqn => ?_⟩
  · rw [responseOf_corr_of_accepted a hpos hle hsy]
    refine ⟨rfl, fun i j hi hj hinei hinej => ?_⟩
    have hsyi : sy = i + 1 := eq_of_testBit_flip_ne hle hi hinei
    have hsyj : sy = j + 1 := eq_of_testBit_flip_ne hle hj hinej
    omega
  · rw [syn_responseOf_synd_flip _ hle hq hqn, syn_responseOf_synd_flip a hle hp hpn, hsyn, Nat.zero_xor]

/-- Settles O21: the syndrome of the error is its position, FLIP undoes it there, and DECODE ends with
the response of that CORR. -/
theorem decodeMacroRecoversTheCodeword : Obligations.DecodeMacroRecoversTheCodeword := by
  unfold Obligations.DecodeMacroRecoversTheCodeword
  rintro s n k v hb ⟨hpos, hle, hvalid⟩ hv hk hkn
  have hfound : (responseOf s.cfg (.synd n (v ^^^ 2 ^ (k - 1)))).syn = k := by
    rw [syn_responseOf_synd_flip v hle hk hkn, hvalid, Nat.zero_xor]
  have hundone : responseOf s.cfg (.corr n k (v ^^^ 2 ^ (k - 1))) = ⟨0, 0, 0, 0, v % 2 ^ n, 0⟩ := by
    rw [responseOf_corr_of_accepted _ hpos hle hkn, flip_xor_two_pow v hle hk]
  refine ⟨hfound, by rw [hundone], fun cw hcw => ?_⟩
  have herrorBit : 2 ^ (k - 1) < 2 ^ s.cfg.nmax := Nat.pow_lt_pow_right Nat.one_lt_two (by omega)
  obtain ⟨t, hdecode, hresponse⟩ :=
    macroDecode_of_accepted hb hcw (Nat.xor_lt_two_pow hv herrorBit) hpos hle
  rw [hfound, hundone] at hresponse
  exact ⟨t, hdecode, congrArg Response.err hresponse, congrArg Response.cw hresponse⟩
end

section
/-! DCMP in closed form, the response of DIFF by the lengths it is given (R104 to R106), and the
sequence a host reads from it (R107, R108). -/

namespace Sys2Proof.Machine

variable {c : Config} {n na nb : Nat}

/-! ### DCMP (R105) -/

/-- PEN cuts the difference at the length. -/
theorem dcmp_eq_xor_mod (a b : Nat) (hle : n ≤ c.nmax) : dcmp c n a b = (a ^^^ b) % 2 ^ n :=
  Nat.eq_of_testBit_eq fun j => by
    rw [testBit_dcmp, Nat.testBit_mod_two_pow, Nat.testBit_xor]
    by_cases hj : j < n
    · rw [decide_eq_true (hj.trans_le hle), Bool.true_and]
    · rw [decide_eq_false hj, Bool.and_false]

theorem dcmp_comm (a b : Nat) : dcmp c n a b = dcmp c n b a :=
  Nat.eq_of_testBit_eq fun j => by rw [testBit_dcmp, testBit_dcmp, Bool.xor_comm]

theorem testBit_xor_mod_two_pow (n a b j : Nat) :
    ((a ^^^ b) % 2 ^ n).testBit j = true ↔ j < n ∧ a.testBit j ≠ b.testBit j := by
  rw [Nat.testBit_mod_two_pow, Nat.testBit_xor, Bool.and_eq_true, decide_eq_true_iff, bne_iff_ne]

/-! ### `Precheck` of the command that reads two lengths (R114) -/

theorem precheck_diff_of_accepted (hna : 1 ≤ na) (hna' : na ≤ c.nmax) (hnb : 1 ≤ nb)
    (hnb' : nb ≤ c.nmax) : precheck c 3 na nb = none := by
  rw [precheck, if_neg (by omega), if_neg (by omega), if_neg (by omega)]

/-- Each check of DIFF's lengths is a disjunction over both (R114). -/
theorem precheck_diff_comm (na nb : Nat) : precheck c 3 na nb = precheck c 3 nb na := by
  simp only [precheck, true_and, or_comm]

/-! ### The response of DIFF -/

theorem responseOf_diff_of_accepted (a b : Nat) (hpos : 1 ≤ n) (hle : n ≤ c.nmax) :
    responseOf c (.diff n n a b) = ⟨0, 0, 0, 0, 0, (a ^^^ b) % 2 ^ n⟩ := by
  rw [responseOf, diffResponse, precheck_diff_of_accepted hpos hle hpos hle, firstError_none, lengthCheck,
    if_neg (not_not_intro rfl), respond_none, dcmp_eq_xor_mod a b hle]
  rfl

theorem responseOf_diff_of_ne (a b : Nat) (hna : 1 ≤ na) (hna' : na ≤ c.nmax) (hnb : 1 ≤ nb)
    (hnb' : nb ≤ c.nmax) (hne : na ≠ nb) : responseOf c (.diff na nb a b) = raiseErr .lengthMismatch := by
  rw [responseOf, diffResponse, precheck_diff_of_accepted hna hna' hnb hnb', firstError_none, lengthCheck,
    if_pos hne, respond_some]

/-- With unequal lengths the response is an error, which carries neither codeword; with equal lengths
it is the symmetric comparison. -/
theorem responseOf_diff_comm (a b : Nat) :
    responseOf c (.diff na nb a b) = responseOf c (.diff nb na b a) := by
  simp only [responseOf, diffResponse, precheck_diff_comm na nb]
  obtain ⟨rfl, _⟩ | ⟨hne, hmismatch⟩ := lengthCheck_cases na nb
  · rw [dcmp_comm]
  · have hmismatch' : lengthCheck nb na = some .lengthMismatch := if_pos hne.symm
    rw [hmismatch, hmismatch']
    cases precheck c 3 nb na <;> rfl

/-! ### Reading out the positions of difference (R107, R108) -/

theorem mem_diffSequence_iff {r : Response} {p : Nat} :
    p ∈ diffSequence c r ↔ 1 ≤ p ∧ p ≤ c.nmax ∧ r.diff.testBit (p - 1) = true := by
  simp only [diffSequence, List.mem_map, List.mem_filter, List.mem_range]
  constructor
  · rintro ⟨j, ⟨hj, hbit⟩, rfl⟩
    exact ⟨j.succ_pos, hj, hbit⟩
  · rintro ⟨hpos, hle, hbit⟩
    exact ⟨p - 1, ⟨by omega, hbit⟩, Nat.sub_add_cancel hpos⟩

theorem diffSequence_pairwise_lt (c : Config) (r : Response) : (diffSequence c r).Pairwise (· < ·) :=
  (List.pairwise_lt_range.filter _).map _ fun _ _ hlt => Nat.succ_lt_succ hlt

/-- The read-out sees every bit of a legal mask, so it is empty only for the mask 0. -/
theorem Response.Legal.diffSequence_eq_nil_iff {r : Response} (h : r.Legal c) :
    diffSequence c r = [] ↔ r.diff = 0 := by
  constructor
  · refine fun hempty => Nat.eq_of_testBit_eq fun j => ?_
    rw [Nat.zero_testBit]
    by_cases hj : j < c.nmax
    · have hout : j + 1 ∉ diffSequence c r := List.eq_nil_iff_forall_not_mem.mp hempty (j + 1)
      rw [mem_diffSequence_iff] at hout
      exact Bool.eq_false_iff.mpr fun hbit => hout ⟨j.succ_pos, hj, hbit⟩
    · have habove : 2 ^ c.nmax ≤ 2 ^ j := Nat.pow_le_pow_right Nat.two_pos (Nat.not_lt.mp hj)
      exact Nat.testBit_lt_two_pow (h.diff_lt.trans_le habove)
  · intro hzero
    simp [diffSequence, hzero]

end Sys2Proof.Machine

open Sys2Proof Sys2Proof.Machine

/-- Settles O23: the checks pass, and the comparator is the XOR cut at the length. -/
theorem diffAnswersDifferenceMask : Obligations.DiffAnswersDifferenceMask := by
  unfold Obligations.DiffAnswersDifferenceMask
  intro s n a b hpos hle
  refine ⟨?_, testBit_xor_mod_two_pow n a b⟩
  rw [exec_eq_load, responseOf_diff_of_accepted a b hpos hle, State.load_eq_showing]

/-- Settles O24: the length check is the one that fails, and its error carries no mask. -/
theorem diffRefusesUnequalLengths : Obligations.DiffRefusesUnequalLengths := by
  unfold Obligations.DiffRefusesUnequalLengths
  intro s na nb a b hna hna' hnb hnb' hne
  rw [exec_eq_load, responseOf_diff_of_ne a b hna hna' hnb hnb' hne]
  rfl

/-- Settles O25: the sequence holds the positions of the mask's bits, and the mask is 0 only for
codewords that agree below `n`. -/
theorem diffSequenceReadOut : Obligations.DiffSequenceReadOut := by
  unfold Obligations.DiffSequenceReadOut
  intro c n a b hpos hle
  refine ⟨fun p => ?_, diffSequence_pairwise_lt c _, ?_⟩
  · rw [mem_diffSequence_iff, responseOf_diff_of_accepted a b hpos hle, testBit_xor_mod_two_pow]
    constructor
    · rintro ⟨hp, _, hpn, hdiffer⟩
      exact ⟨hp, by omega, hdiffer⟩
    · rintro ⟨hp, hpn, hdiffer⟩
      exact ⟨hp, hpn.trans hle, by omega, hdiffer⟩
  · rw [(responseOf_legal c _).diffSequence_eq_nil_iff, responseOf_diff_of_accepted a b hpos hle,
      Nat.xor_mod_two_pow, Nat.xor_eq_zero_iff]

/-- Settles O26: the checks treat the two lengths alike, and the comparator the two codewords. -/
theorem diffIsSymmetric : Obligations.DiffIsSymmetric := by
  unfold Obligations.DiffIsSymmetric
  intro c na nb a b
  exact responseOf_diff_comm a b
end

section
/-! The checks of R114 in their order: the code a command's response carries, what an error leaves in the
registers (R115), and the responses the length checks decide (R116, R117). -/

namespace Sys2Proof.Machine

/-! ### The first check that fails (R114) -/

/-- The check a command makes after `Precheck`: CORR's range check, DIFF's length check. -/
def ownCheck : Instr → Option ErrCode
  | .corr na sy _ => rangeCheck na sy
  | .diff na nb _ _ => lengthCheck na nb
  | .ppos _ => none
  | .synd _ _ => none
  | .reserved _ _ => none

theorem ownCheck_cases (i : Instr) :
    (opOf i = 2 ∧ lenA i < synOperand i ∧ ownCheck i = some .outOfRange) ∨
    (opOf i = 3 ∧ lenA i ≠ lenB i ∧ ownCheck i = some .lengthMismatch) ∨
    (¬ (opOf i = 2 ∧ lenA i < synOperand i) ∧ ¬ (opOf i = 3 ∧ lenA i ≠ lenB i) ∧
      ownCheck i = none) := by
  cases i with
  | corr na sy a =>
    obtain ⟨hle, hnone⟩ | ⟨hlt, hrange⟩ := rangeCheck_cases na sy
    · exact .inr (.inr ⟨fun ⟨_, hlt⟩ => Nat.not_lt.mpr hle hlt, by simp [opOf], hnone⟩)
    · exact .inl ⟨rfl, hlt, hrange⟩
  | diff na nb a b =>
    obtain ⟨heq, hnone⟩ | ⟨hne, hmismatch⟩ := lengthCheck_cases na nb
    · exact .inr (.inr ⟨by simp [opOf], fun ⟨_, hne⟩ => hne heq, hnone⟩)
    · exact .inr (.inl ⟨rfl, hne, hmismatch⟩)
  | ppos na => simp [opOf, ownCheck]
  | synd na a => simp [opOf, ownCheck]
  | reserved op rest => simp [lenA, lenB, synOperand, ownCheck]

@[simp] theorem firstError_none_right (e : Option ErrCode) : firstError e none = e := by
  cases e <;> rfl

/-- Every command responds with the first of its checks that fails. A reserved command fails by its
opcode, if that is 4 or above, and then no output matters (R113). -/
theorem responseOf_eq_respond (c : Config) (i : Instr) (h : ∀ op rest, i = .reserved op rest → 4 ≤ op) :
    ∃ o, responseOf c i =
      respond (firstError (precheck c (opOf i) (lenA i) (lenB i)) (ownCheck i)) o := by
  cases i with
  | ppos na => exact ⟨_, by rw [ownCheck, firstError_none_right]; rfl⟩
  | synd na a => exact ⟨_, by rw [ownCheck, firstError_none_right]; rfl⟩
  | corr na sy a => exact ⟨_, rfl⟩
  | diff na nb a b => exact ⟨_, rfl⟩
  | reserved op rest =>
    have hillegal : precheck c op 0 0 = some .illegalOp := if_pos (h op rest rfl)
    exact ⟨.corrected 0, by rw [opOf, lenA, lenB, hillegal]; rfl⟩

/-- Everything `RSP_ERR` can be, with its cause and the checks before it that passed (R112, R114). -/
theorem responseOf_err_cases (c : Config) (i : Instr) (h : ∀ op rest, i = .reserved op rest → 4 ≤ op) :
    (4 ≤ opOf i ∧ (responseOf c i).err = 5) ∨
    (opOf i < 4 ∧ (c.nmax < lenA i ∨ opOf i = 3 ∧ c.nmax < lenB i) ∧ (responseOf c i).err = 4) ∨
    (opOf i < 4 ∧ lenA i ≤ c.nmax ∧ (opOf i = 3 → lenB i ≤ c.nmax) ∧
      (lenA i = 0 ∨ opOf i = 3 ∧ lenB i = 0) ∧ (responseOf c i).err = 1) ∨
    (opOf i < 4 ∧ 1 ≤ lenA i ∧ lenA i ≤ c.nmax ∧ (opOf i = 3 → 1 ≤ lenB i ∧ lenB i ≤ c.nmax) ∧
      ((opOf i = 2 ∧ lenA i < synOperand i ∧ (responseOf c i).err = 3) ∨
        (opOf i = 3 ∧ lenA i ≠ lenB i ∧ (responseOf c i).err = 2) ∨
        (¬ (opOf i = 2 ∧ lenA i < synOperand i) ∧ ¬ (opOf i = 3 ∧ lenA i ≠ lenB i) ∧
          (responseOf c i).err = 0))) := by
  obtain ⟨o, ho⟩ := responseOf_eq_respond c i h
  rw [ho]
  obtain ⟨hop, hcheck⟩ | ⟨hop, hlong, hcheck⟩ | ⟨hop, hna, hnb, hzero, hcheck⟩ |
      ⟨hop, hpos, hna, hnb, hcheck⟩ := precheck_cases c (opOf i) (lenA i) (lenB i)
  · exact .inl ⟨hop, by rw [hcheck]; rfl⟩
  · exact .inr (.inl ⟨hop, hlong, by rw [hcheck]; rfl⟩)
  · exact .inr (.inr (.inl ⟨hop, hna, hnb, hzero, by rw [hcheck]; rfl⟩))
  · refine .inr (.inr (.inr ⟨hop, hpos, hna, hnb, ?_⟩))
    rw [hcheck, firstError_none]
    obtain ⟨hcorr, hlt, hown⟩ | ⟨hdiff, hne, hown⟩ | ⟨hcorr, hdiff, hown⟩ := ownCheck_cases i
    · exact .inl ⟨hcorr, hlt, by rw [hown]; rfl⟩
    · exact .inr (.inl ⟨hdiff, hne, by rw [hown]; rfl⟩)
    · exact .inr (.inr ⟨hcorr, hdiff, by rw [hown, respond_none, rmux_err]⟩)

/-! ### What an error leaves in the registers (R115) -/

/-- A command whose response is `raise Err(CODE)` shows the code and nothing else. -/
theorem exec_of_raiseErr {i : Instr} {s : State} {e : ErrCode} (h : responseOf s.cfg i = raiseErr e) :
    exec i s = .next (s.showing e.bits 0 0 0 0 0) := by
  rw [exec_eq_load, h, State.load_eq_showing, raiseErr]

/-! ### The responses the length checks decide (R116, R117) -/

variable {c : Config} {n na nb : Nat}

theorem responseOf_corr_of_above (sy a : Nat) (h : c.nmax < n) :
    responseOf c (.corr n sy a) = raiseErr .capacity := by
  rw [responseOf, corrResponse, precheck_of_above (by decide) h, firstError_some, respond_some]

theorem responseOf_corr_zero (sy a : Nat) : responseOf c (.corr 0 sy a) = raiseErr .invalidInput := by
  rw [responseOf, corrResponse, precheck_of_zero (by decide), firstError_some, respond_some]

theorem responseOf_diff_of_above (a b : Nat) (h : c.nmax < na ∨ c.nmax < nb) :
    responseOf c (.diff na nb a b) = raiseErr .capacity := by
  have hcheck : precheck c 3 na nb = some .capacity := by
    rw [precheck, if_neg (by decide), if_pos (by omega)]
  rw [responseOf, diffResponse, hcheck, firstError_some, respond_some]

/-- DIFF with `NA = 0`; `NB` above `NMAX` would be reported first (R114). -/
theorem responseOf_diff_zero (a b : Nat) (hle : n ≤ c.nmax) :
    responseOf c (.diff 0 n a b) = raiseErr .invalidInput := by
  have hcheck : precheck c 3 0 n = some .invalidInput := by
    rw [precheck, if_neg (by decide), if_neg (by omega), if_pos (.inl rfl)]
  rw [responseOf, diffResponse, hcheck, firstError_some, respond_some]

/-- Both lengths of a command that has a word fit a length field (R69). -/
theorem lengths_lt_of_wellFormed {i : Instr} (h : i.wellFormed c = true) :
    lenA i < 2 ^ c.k ∧ lenB i < 2 ^ c.k := by
  cases i with
  | ppos na => exact ⟨wellFormed_ppos_iff.mp h, Nat.two_pow_pos _⟩
  | synd na a => exact ⟨(wellFormed_synd_iff.mp h).1, Nat.two_pow_pos _⟩
  | corr na sy a => exact ⟨(wellFormed_corr_iff.mp h).1, Nat.two_pow_pos _⟩
  | diff na nb a b =>
    obtain ⟨hna, hnb, _, _⟩ := wellFormed_diff_iff.mp h
    exact ⟨hna, hnb⟩
  | reserved op rest => exact ⟨Nat.two_pow_pos _, Nat.two_pow_pos _⟩

/-! ### Every edge answers (R111) -/

theorem exists_acceptEdge_eq_next (w : Nat) (s : State) :
    ∃ t, acceptEdge w s = .next t ∧ t.cfg = s.cfg ∧ t.edges = s.edges := by
  obtain ⟨_, h⟩ | ⟨_, h⟩ := acceptEdge_cases w s
  · exact ⟨_, h, rfl, rfl⟩
  · exact ⟨_, h, rfl, rfl⟩

theorem exists_flightEdge_eq_next (s : State) :
    ∃ t, flightEdge s = .next t ∧ t.cfg = s.cfg ∧ t.edges = s.edges := by
  obtain ⟨_, h⟩ | ⟨_, h⟩ := flightEdge_cases s
  · exact ⟨_, h, rfl, rfl⟩
  · exact ⟨_, h, rfl, rfl⟩

theorem exists_clockEdge_eq_next (e : EdgeIn) (s : State) :
    ∃ t, clockEdge e s = .next t ∧ t.cfg = s.cfg ∧ t.edges = s.edges := by
  obtain ⟨_, h⟩ | ⟨_, _, _, h⟩ | ⟨_, _, h⟩ | ⟨_, _, _, h⟩ := clockEdge_cases e s
  · exact ⟨_, h, rfl, rfl⟩
  · rw [h]
    exact exists_acceptEdge_eq_next _ s
  · rw [h]
    exact exists_flightEdge_eq_next s
  · exact ⟨_, h, rfl, rfl⟩

end Sys2Proof.Machine
end

section
/-! The statements of 60_exceptions.md. -/

open Sys2Proof Sys2Proof.Machine

/-- Settles O28: the checks are tried in order, so exactly one of six outcomes occurs, and each
refutes the causes of the other five. -/
theorem errorCodeIffItsCause : Obligations.ErrorCodeIffItsCause := by
  unfold Obligations.ErrorCodeIffItsCause
  intro c i hreserved
  obtain ⟨_, herr⟩ | ⟨_, _, herr⟩ | ⟨_, _, _, _, herr⟩ |
      ⟨_, _, _, _, ⟨_, _, herr⟩ | ⟨_, _, herr⟩ | ⟨_, _, herr⟩⟩ := responseOf_err_cases c i hreserved
  all_goals
    simp only [herr, BitVec.reduceEq, true_iff, false_iff]
    omega

/-- Settles O29: an error response is legal, and a legal error has no other field set. -/
theorem errorResponseCarriesOnlyItsCode : Obligations.ErrorResponseCarriesOnlyItsCode := by
  unfold Obligations.ErrorResponseCarriesOnlyItsCode
  intro i s herr
  have hempty := (responseOf_legal s.cfg i).error_empty herr
  rw [exec_eq_load]
  exact congrArg (fun r => Host.Outcome.next (s.load r)) hempty

/-- Settles O30: `Precheck` fails on a length above `NMAX`, and a length that fits its field is at most
`2^K - 1`. -/
theorem capacityIsALengthAboveNmax : Obligations.CapacityIsALengthAboveNmax := by
  unfold Obligations.CapacityIsALengthAboveNmax
  intro s na nb sy a b
  refine ⟨fun hna => ⟨?_, ?_, ?_, ?_⟩, fun hnb => ?_, fun hfull i hwf hcapacity => ?_⟩
  · exact exec_of_raiseErr (responseOf_ppos_of_above hna)
  · exact exec_of_raiseErr (responseOf_synd_of_above a hna)
  · exact exec_of_raiseErr (responseOf_corr_of_above sy a hna)
  · exact exec_of_raiseErr (responseOf_diff_of_above a b (.inl hna))
  · exact exec_of_raiseErr (responseOf_diff_of_above a b (.inr hnb))
  · obtain ⟨_, hcause, _⟩ := errorCodeIffItsCause s.cfg i fun op rest hi =>
      (wellFormed_reserved_iff.mp (hi ▸ hwf)).1
    obtain ⟨_, hlong⟩ := hcause.mp hcapacity
    obtain ⟨hna, hnb⟩ := lengths_lt_of_wellFormed hwf
    omega

/-- Settles O49: a reset edge, an acceptance, an edge in flight and a quiet edge each answer. -/
theorem stepNeverStops : Obligations.StepNeverStops := by
  unfold Obligations.StepNeverStops
  exact fun s => exists_clockEdge_eq_next s.edgeIn s.popEdge

/-- Settles O27: the decoder answers a reserved command, whose response reads none of its fields. -/
theorem reservedOpcodeAnswersIllegalOp : Obligations.ReservedOpcodeAnswersIllegalOp := by
  unfold Obligations.ReservedOpcodeAnswersIllegalOp
  intro s
  have hillegal (op rest : Nat) : exec (.reserved op rest) s = .next (s.showing 5 0 0 0 0 0) :=
    exec_of_raiseErr (e := .illegalOp) rfl
  refine ⟨fun w hop => ?_, hillegal⟩
  rw [decode_of_four_le_op (by rwa [opField_eq_mod])]
  exact hillegal _ _

/-- Settles O31: `Precheck` fails on a zero length, DIFF treats its two lengths alike, and a string with
a bad character has no vector. -/
theorem zeroLengthIsInvalidInput : Obligations.ZeroLengthIsInvalidInput := by
  unfold Obligations.ZeroLengthIsInvalidInput
  intro s n sy a b hle
  refine ⟨?_, ?_, ?_, ?_, ?_, fun cs hbad => ?_⟩
  · exact exec_of_raiseErr responseOf_ppos_zero
  · exact exec_of_raiseErr (responseOf_synd_zero a)
  · exact exec_of_raiseErr (responseOf_corr_zero sy a)
  · exact exec_of_raiseErr (responseOf_diff_zero a b hle)
  · exact exec_of_raiseErr ((responseOf_diff_comm a b).trans (responseOf_diff_zero b a hle))
  · exact hostConvert_of_none s.cfg (vectorOfChars_eq_none hbad)
end

section
/-! Reset edges, and what an idle block holds after the edge that accepts a command (R35, R127). -/

namespace Sys2Proof.Machine

variable {s : State}

/-! ### The reset edge -/

/-- A reset edge wins over whatever else the edge could have done (R128). -/
theorem step_of_reset (hrst : s.edgeIn.rst = true) :
    step s = .next (State.resetOf s.cfg s.edges.tail) := by
  rw [step, clockEdge, if_pos hrst]
  rfl

/-- The reset edge with inputs `e`, whatever else `e` presents. -/
theorem step_of_reset_cons {e : EdgeIn} {edges : List EdgeIn} (hedges : s.edges = e :: edges)
    (hrst : e.rst = true) : step s = .next (State.resetOf s.cfg edges) := by
  rw [step_of_reset (by rw [State.edgeIn, hedges]; exact hrst), hedges, List.tail_cons]

@[simp] theorem State.resetOf_rspWord (c : Config) (edges : List EdgeIn) :
    (State.resetOf c edges).rspWord = 0 := by
  simp [State.rspWord, State.response, State.resetOf, responseWord]

/-! ### The accepting edge -/

/-- Both kinds of acceptance take the word into `LATCH`; the latency decides whether its response shows
at once or the command is in flight (R35). -/
theorem exists_step_present (w : Nat) (edges : List EdgeIn) (hbusy : s.busy = false) :
    ∃ u, step { s with edges := ⟨false, true, w⟩ :: edges } = .next u ∧ u.latch = s.cfg.cmdPort w ∧
      (s.cfg.lat = 0 → u.response = execFn s.cfg w ∧ u.rspValid = true) ∧
      (s.cfg.lat ≠ 0 → u.busy = true) := by
  by_cases hlat : s.cfg.lat = 0
  · exact ⟨_, step_present_of_lat_zero w edges hbusy hlat, rfl, fun _ => ⟨rfl, rfl⟩,
      fun hne => absurd hlat hne⟩
  · exact ⟨_, step_present_of_lat_ne_zero w edges hbusy hlat, rfl, fun h0 => absurd h0 hlat,
      fun _ => rfl⟩

end Sys2Proof.Machine
end

section
/-! What an edge keeps: `LATCH` while a command is in flight, and the response registers until a
completion (R134, R136). -/

namespace Sys2Proof.Machine

variable {s t : State}

/-- An edge in flight keeps the word in `LATCH` (R36, R136). -/
theorem latch_of_flightEdge (h : flightEdge s = .next t) : t.latch = s.latch := by
  obtain ⟨_, he⟩ | ⟨_, he⟩ := flightEdge_cases s
  · cases he.symm.trans h
    rfl
  · cases he.symm.trans h
    rfl

/-- An acceptance with `LAT >= 1` keeps the response registers (R35). -/
theorem response_of_acceptEdge {w : Nat} (hlat : s.cfg.lat ≠ 0) (h : acceptEdge w s = .next t) :
    t.response = s.response := by
  cases (acceptEdge_of_lat_ne_zero w hlat).symm.trans h
  rfl

/-- An edge in flight before the completion edge keeps the response registers (R36). -/
theorem response_of_flightEdge (hcnt : s.cnt ≠ 0) (h : flightEdge s = .next t) :
    t.response = s.response := by
  cases (flightEdge_of_cnt_ne_zero hcnt).symm.trans h
  rfl

end Sys2Proof.Machine
end

section
/-! A host read needs a valid response, and a legal one reads back (R64, R135). -/

namespace Sys2Proof.Machine

/-- The six values of `RSP_ERR` that the block writes all name an outcome (R64). -/
theorem ErrCode.isSome_ofBits : ∀ b : ErrBits, b.toNat ≤ 5 → (ErrCode.ofBits b).isSome = true := by
  decide

theorem State.hostRead_of_not_rspValid {s : State} (h : s.rspValid = false) :
    s.hostRead = .refused .noResult := by
  rw [State.hostRead, h]
  rfl

theorem State.hostRead_of_legal {s : State} (hvalid : s.rspValid = true)
    (hlegal : s.response.Legal s.cfg) : s.hostRead = .next s.response := by
  obtain ⟨e, he⟩ := Option.isSome_iff_exists.mp (ErrCode.isSome_ofBits s.rspErr hlegal.err_le)
  simp only [State.hostRead, hvalid, he, if_true]

end Sys2Proof.Machine
end

section
/-! Runs with a command in flight or with nothing to do: part of a flight, quiet edges, and the end of a
run (R36, R37, R141). -/

namespace Sys2Proof.Machine

/-! ### Part of a flight -/

/-- What a block holds when the word `w` was accepted and `m` edges of its flight have gone by: the
response registers are those of before, and `RSP_VALID` is 0 (R35, R36). -/
def State.waiting (s : State) (w m : Nat) : State :=
  { (s.latchWord (s.cfg.cmdPort w)).startFlight with cnt := s.cfg.lat - 1 - m }

@[simp] theorem State.waiting_busy (s : State) (w m : Nat) : (s.waiting w m).busy = true := rfl
@[simp] theorem State.waiting_rspValid (s : State) (w m : Nat) : (s.waiting w m).rspValid = false := rfl
@[simp] theorem State.waiting_edges (s : State) (w m : Nat) : (s.waiting w m).edges = s.edges := rfl
@[simp] theorem State.waiting_response (s : State) (w m : Nat) :
    (s.waiting w m).response = s.response := rfl

/-- After the accepting edge and fewer than `LAT` edges in flight the command still waits, whatever the
host presents in them (R36). -/
theorem run_waiting {s : State} {flight : List EdgeIn} (w : Nat) (rest : List EdgeIn) {m : Nat}
    (hbusy : s.busy = false) (hedges : s.edges = ⟨false, true, w⟩ :: (flight ++ rest))
    (hrst : ∀ e ∈ flight, e.rst = false) (hlen : m ≤ flight.length) (hlat : m < s.cfg.lat) :
    run (m + 1) s = .next (({ s with edges := flight.drop m ++ rest } : State).waiting w m) := by
  have haccept := step_present_of_lat_ne_zero w (flight ++ rest) hbusy (by omega)
  rw [← hedges] at haccept
  have htake : (flight.take m).length = m := List.length_take_of_le hlen
  have hcount := run_countDown (s := (s.latchWord (s.cfg.cmdPort w)).startFlight)
    (flight.drop m ++ rest) rfl (fun e he => hrst e (List.mem_of_mem_take he))
    (by rw [htake, State.startFlight_cnt, State.latchWord_cfg]; omega)
  rw [← List.append_assoc, List.take_append_drop, htake] at hcount
  rw [run_succ_of_step haccept]
  exact hcount

/-! ### Quiet edges (R37) -/

/-- Edges with nothing to do only use up the host's inputs. -/
theorem run_quiet {s : State} {quiet : List EdgeIn} (rest : List EdgeIn) {m : Nat}
    (hbusy : s.busy = false) (hquiet : ∀ e ∈ quiet, e.rst = false ∧ e.cmdValid = false)
    (hlen : m ≤ quiet.length) :
    run m { s with edges := quiet ++ rest } = .next { s with edges := quiet.drop m ++ rest } := by
  induction m generalizing quiet with
  | zero => rfl
  | succ m ih =>
    cases quiet with
    | nil => simp at hlen
    | cons e quiet =>
      obtain ⟨⟨hrst, hvalid⟩, htail⟩ := List.forall_mem_cons.mp hquiet
      have hstep : step { s with edges := e :: (quiet ++ rest) } =
          .next { s with edges := quiet ++ rest } :=
        step_of_quiet (s := { s with edges := e :: (quiet ++ rest) }) hrst hvalid hbusy
      rw [List.cons_append, run_succ_of_step hstep, List.drop_succ_cons]
      exact ih htail (Nat.le_of_succ_le_succ hlen)

/-! ### The end of a run (R141) -/

/-- With a silent host an edge in flight reads and uses up no input (log entry 2). -/
theorem step_of_busy_of_silent {s : State} (hbusy : s.busy = true) (hedges : s.edges = []) :
    step s = flightEdge s := by
  have hpop : s.popEdge = s := by rw [State.popEdge, hedges, List.tail_nil, ← hedges]
  have hrst : s.edgeIn.rst = false := by rw [State.edgeIn, hedges]; rfl
  rw [step_of_busy hrst hbusy, hpop]

/-- With a silent host, `CNT + 1` edges complete the command in flight. -/
theorem exists_run_ended_of_busy {s : State} {n : Nat} (hbusy : s.busy = true) (hcnt : s.cnt = n)
    (hedges : s.edges = []) : ∃ t, run (n + 1) s = .next t ∧ t.ended := by
  induction n generalizing s with
  | zero =>
    have hstep := (step_of_busy_of_silent hbusy hedges).trans (flightEdge_of_cnt_zero hcnt)
    rw [exec_eq_load] at hstep
    exact ⟨_, run_succ_of_step hstep 0, hedges, rfl⟩
  | succ n ih =>
    have hstep := (step_of_busy_of_silent hbusy hedges).trans (flightEdge_of_cnt_ne_zero (by omega))
    rw [run_succ_of_step hstep]
    exact ih hbusy (by rw [State.countDown_cnt]; omega) hedges

end Sys2Proof.Machine
end

section
/-! The transaction level (R138). -/

namespace Sys2Proof.Machine

/-- Each clock edge is the event that `eventAt` names, applied where it is enabled (R138). -/
theorem step_eq_apply_eventAt (s : State) : step s = (eventAt s.edgeIn s).apply s.popEdge := by
  have hcases := clockEdge_cases s.edgeIn s.popEdge
  rw [State.popEdge_busy] at hcases
  obtain ⟨hrst, h⟩ | ⟨hrst, hbusy, hvalid, h⟩ | ⟨hrst, hbusy, h⟩ | ⟨hrst, hbusy, hvalid, h⟩ := hcases
  · simp [step, h, eventAt, Event.apply, hrst]
  · simp [step, h, eventAt, Event.apply, hrst, hbusy, hvalid]
  · simp [step, h, eventAt, Event.apply, hrst, hbusy]
  · simp [step, h, eventAt, Event.apply, hrst, hbusy, hvalid]

/-- In an idle state that meets the invariant `CNT` is 0, so the clocked run leaves the registers where
the command-level step leaves them (R138, log entry 15). -/
theorem commandStep_eq_answered {s : State} {w : Nat} (hinv : s.Inv) (hbusy : s.busy = false)
    (hw : w < 2 ^ s.cfg.cwW) : commandStep w s = .next (s.answered w) := by
  rw [commandStep_idle w hbusy, State.answered, Config.cmdPort_eq_mod, Nat.mod_eq_of_lt hw,
    hinv.cnt_idle hbusy, ite_self, ← hbusy]

end Sys2Proof.Machine
end

section
/-! The statements of 70_reset_and_hazards.md. -/

open Sys2Proof Sys2Proof.Machine

/-- Settles O39: the reset test comes first in the edge. -/
theorem resetEdgeGivesResetState : Obligations.ResetEdgeGivesResetState := by
  unfold Obligations.ResetEdgeGivesResetState
  exact fun s hrst => ⟨by simp [State.cmdReady], step_of_reset hrst⟩

/-- Settles O48: a state that meets the invariant shows a legal response, whose code the host can
name. -/
theorem hostReadNeedsValid : Obligations.HostReadNeedsValid := by
  unfold Obligations.HostReadNeedsValid
  exact fun s => ⟨State.hostRead_of_not_rspValid,
    fun hinv hvalid => State.hostRead_of_legal hvalid hinv.legal⟩

/-- Settles O40: the reset edge leaves an idle block, and an idle block accepts what is presented. -/
theorem firstCommandAfterReset : Obligations.FirstCommandAfterReset := by
  unfold Obligations.FirstCommandAfterReset
  rintro s e ⟨_, _, w⟩ rest hedges hrst rfl rfl
  have haccept := exists_step_present (s := State.resetOf s.cfg rest) w rest rfl
  rw [Config.cmdPort_eq_mod] at haccept
  exact ⟨_, step_of_reset_cons hedges hrst, rfl, rfl, State.resetOf_rspWord _ _, haccept⟩

/-- Settles O42: with `BUSY = 1` the edge is the edge in flight, which reads no port and keeps
`LATCH`. -/
theorem busyEdgeIgnoresTheCommandPort : Obligations.BusyEdgeIgnoresTheCommandPort := by
  unfold Obligations.BusyEdgeIgnoresTheCommandPort
  intro s rest valid valid' w w' hbusy
  have hedge (v : Bool) (x : Nat) : step { s with edges := ⟨false, v, x⟩ :: rest } =
      flightEdge { s with edges := rest } := step_cons_of_busy rest rfl hbusy
  obtain ⟨t, ht, _, _⟩ := exists_flightEdge_eq_next { s with edges := rest }
  exact ⟨by rw [State.cmdReady_false_eq, hbusy]; rfl, (hedge valid w).trans (hedge valid' w').symm, t,
    (hedge valid w).trans ht, latch_of_flightEdge (s := { s with edges := rest }) ht⟩

/-- Settles O47: of the edges that are left, an acceptance with `LAT >= 1`, a count and a quiet edge,
none writes a response register. -/
theorem responseStaysUntilNextCompletion : Obligations.ResponseStaysUntilNextCompletion := by
  unfold Obligations.ResponseStaysUntilNextCompletion
  intro s t hstep hrst hcompletion haccepted
  obtain ⟨hreset, _⟩ | ⟨_, hbusy, hvalid, h⟩ | ⟨_, hbusy, h⟩ | ⟨_, _, _, h⟩ :=
    clockEdge_cases s.edgeIn s.popEdge
  · exact absurd hreset (by simp [hrst])
  · exact response_of_acceptEdge (s := s.popEdge) (fun hlat => haccepted ⟨hbusy, hvalid, hlat⟩)
      (h.symm.trans hstep)
  · exact response_of_flightEdge (s := s.popEdge) (fun hcnt => hcompletion ⟨hbusy, hcnt⟩)
      (h.symm.trans hstep)
  · cases h.symm.trans hstep
    rfl

/-- Settles O43: before the completion edge the command waits, and that edge answers it. -/
theorem commandCompletesAfterLatEdges : Obligations.CommandCompletesAfterLatEdges := by
  unfold Obligations.CommandCompletesAfterLatEdges
  intro s w flight rest hbusy hedges hlen hrst
  have hanswer := run_command w rest hbusy hlen hrst
  rw [← hedges] at hanswer
  refine ⟨fun m hm => ?_, _, hanswer, rfl, rfl, rfl, rfl, rfl⟩
  exact ⟨_, run_waiting w rest hbusy hedges hrst (hlen ▸ hm.le) hm, State.waiting_busy _ _ _, rfl,
    State.waiting_rspValid _ _ _, State.waiting_response _ _ _⟩

/-- Settles O44: an edge is one of the four events, and a whole command of the clock leaves what the
command-level step leaves. -/
theorem transactionStepIsExact : Obligations.TransactionStepIsExact := by
  unfold Obligations.TransactionStepIsExact
  refine ⟨fun s => ⟨step_eq_apply_eventAt s, ?_⟩, fun s w hbusy => if_pos hbusy, ?_⟩
  · obtain ⟨t, ht, _, _⟩ := stepNeverStops s
    exact ⟨t, ht⟩
  · intro s w flight rest hinv hbusy hedges hw hlen hrst
    have hanswer := run_command w rest hbusy hlen hrst
    rw [← hedges] at hanswer
    rw [hanswer]
    exact (commandStep_eq_answered (s := { s with edges := rest }) { hinv with } hbusy hw).symm

/-- Settles O45: up to the reset edge the command waits; the reset state has no command in flight, and
quiet edges keep it. -/
theorem resetLosesTheCommandInFlight : Obligations.ResetLosesTheCommandInFlight := by
  unfold Obligations.ResetLosesTheCommandInFlight
  intro s w flight quiet rest e hbusy hedges hlen hflight hrst hquiet
  have hwait {m : Nat} (hm : m ≤ flight.length) :=
    run_waiting w (e :: (quiet ++ rest)) hbusy hedges hflight hm (hm.trans_lt hlen)
  refine ⟨fun m hm => ⟨_, hwait hm, State.waiting_rspValid _ _ _, State.waiting_response _ _ _⟩,
    fun m hm => ?_⟩
  have hbefore := hwait (Nat.le_refl _)
  rw [List.drop_length, List.nil_append] at hbefore
  have hreset : run (flight.length + 1 + 1) s = .next (State.resetOf s.cfg (quiet ++ rest)) := by
    rw [run_add_of_run hbefore]
    exact run_succ_of_step (step_of_reset_cons (State.waiting_edges _ _ _) hrst) 0
  rw [run_add_of_run hreset]
  exact run_quiet (s := State.resetOf s.cfg rest) rest rfl hquiet hm

/-- Settles O50: with a command in flight the run ends after `CNT + 1` edges, and `CNT < LAT`. -/
theorem runEndsOnceTheHostStops : Obligations.RunEndsOnceTheHostStops := by
  unfold Obligations.RunEndsOnceTheHostStops
  intro s hinv hedges
  cases hbusy : s.busy with
  | false => exact ⟨0, s, Nat.zero_le _, rfl, hedges, hbusy⟩
  | true =>
    have hlat : s.cfg.lat ≠ 0 := fun hlat => by simp [hinv.lat_zero hlat] at hbusy
    have hcnt := hinv.cnt_lt
    obtain ⟨t, hrun, hended⟩ := exists_run_ended_of_busy hbusy rfl hedges
    exact ⟨s.cnt + 1, t, by omega, hrun, hended⟩
end
